-- ==== Sys2Proof/Word.lean ====
section
/-! DEFINITION. The widths the spec names: bytes, 16-bit words, and the three field widths of an instruction word
(10_state.md R20, R23; 30_encoding.md R85). Addresses inside memory are plain `Nat`. -/

namespace Sys2Proof

/-- An unsigned 8-bit value: a register, a memory byte, NN (R20, R50, R85). -/
abbrev Byte := BitVec 8

/-- An unsigned 16-bit value: I, PC, SP, an instruction word (R23, R25, R26, R80). -/
abbrev Word := BitVec 16

/-- A 4-bit field: g, X, Y, N (R85). -/
abbrev Nibble := BitVec 4

/-- The 12-bit field NNN (R85). -/
abbrev Addr12 := BitVec 12

end Sys2Proof
end

