-- ==== Sys2Proof/Syntax.lean ====
section
/-! DEFINITION. The 35 instructions, one constructor per row of spec/opcode_table.json, in the table's order.
Fields are kept as the encoding holds them (30_encoding.md R85, R86); `n` of `seReg` and `sneReg` is ignored by
the machine (R93) and kept so that no bit of the word is lost. -/

namespace Sys2Proof

inductive Instr where
  /-- 0NNN, SYS nnn: every group-0 word but 00E0 and 00EE (R143). -/
  | sys (nnn : Addr12)
  /-- 00E0, CLS (R141). -/
  | cls
  /-- 00EE, RET (R142). -/
  | ret
  /-- 1NNN, JP nnn (R144). -/
  | jp (nnn : Addr12)
  /-- 2NNN, CALL nnn (R146). -/
  | call (nnn : Addr12)
  /-- 3XNN, SE Vx, nn (R147). -/
  | seImm (x : Nibble) (nn : Byte)
  /-- 4XNN, SNE Vx, nn (R148). -/
  | sneImm (x : Nibble) (nn : Byte)
  /-- 5XYN, SE Vx, Vy (R149). -/
  | seReg (x y n : Nibble)
  /-- 6XNN, LD Vx, nn (R111). -/
  | ldImm (x : Nibble) (nn : Byte)
  /-- 7XNN, ADD Vx, nn (R112). -/
  | addImm (x : Nibble) (nn : Byte)
  /-- 8XY0, LD Vx, Vy (R113). -/
  | ldReg (x y : Nibble)
  /-- 8XY1, OR Vx, Vy (R114). -/
  | orReg (x y : Nibble)
  /-- 8XY2, AND Vx, Vy (R115). -/
  | andReg (x y : Nibble)
  /-- 8XY3, XOR Vx, Vy (R116). -/
  | xorReg (x y : Nibble)
  /-- 8XY4, ADD Vx, Vy (R117). -/
  | addReg (x y : Nibble)
  /-- 8XY5, SUB Vx, Vy (R118). -/
  | subReg (x y : Nibble)
  /-- 8XY6, SHR Vx, Vy (R119). -/
  | shr (x y : Nibble)
  /-- 8XY7, SUBN Vx, Vy (R120). -/
  | subn (x y : Nibble)
  /-- 8XYE, SHL Vx, Vy (R121). -/
  | shl (x y : Nibble)
  /-- 9XYN, SNE Vx, Vy (R150). -/
  | sneReg (x y n : Nibble)
  /-- ANNN, LD I, nnn (R190). -/
  | ldI (nnn : Addr12)
  /-- BNNN, JP V0, nnn (R151). -/
  | jpV0 (nnn : Addr12)
  /-- CXNN, RND Vx, nn (R123). -/
  | rnd (x : Nibble) (nn : Byte)
  /-- DXYN, DRW Vx, Vy, n (R173). -/
  | drw (x y n : Nibble)
  /-- EX9E, SKP Vx (R201). -/
  | skp (x : Nibble)
  /-- EXA1, SKNP Vx (R202). -/
  | sknp (x : Nibble)
  /-- FX07, LD Vx, DT (R196). -/
  | ldVxDt (x : Nibble)
  /-- FX0A, LD Vx, K (R204). -/
  | ldVxK (x : Nibble)
  /-- FX15, LD DT, Vx (R197). -/
  | ldDtVx (x : Nibble)
  /-- FX18, LD ST, Vx (R198). -/
  | ldStVx (x : Nibble)
  /-- FX1E, ADD I, Vx (R191). -/
  | addI (x : Nibble)
  /-- FX29, LD F, Vx (R192). -/
  | ldF (x : Nibble)
  /-- FX33, LD B, Vx (R193). -/
  | ldB (x : Nibble)
  /-- FX55, LD [I], Vx (R194). -/
  | ldMemVx (x : Nibble)
  /-- FX65, LD Vx, [I] (R195). -/
  | ldVxMem (x : Nibble)
deriving DecidableEq, Repr

end Sys2Proof
end

