-- ==== Sys2Proof/Decode.lean ====
section
/-! DEFINITION. Field extraction, decode and encode of the one 16-bit format (30_encoding.md R80, R85-R94), and the
byte order of a word (20_memory.md R56). -/

namespace Sys2Proof

/-- Bits 15:8 of a word: the byte at the lower address (R56). -/
def highByte (w : Word) : Byte := w.extractLsb' 8 8

/-- Bits 7:0 of a word: the byte at the higher address (R56). -/
def lowByte (w : Word) : Byte := w.extractLsb' 0 8

/-- Big-endian composition: `{M[a], M[a+1]}` (00_scope.md R10, R56). -/
def wordOfBytes (hi lo : Byte) : Word := hi.setWidth 16 <<< 8 ||| lo.setWidth 16

/-- g = w[15:12] (R86). -/
def fieldG (w : Word) : Nibble := w.extractLsb' 12 4

/-- X = w[11:8] (R86). -/
def fieldX (w : Word) : Nibble := w.extractLsb' 8 4

/-- Y = w[7:4] (R86). -/
def fieldY (w : Word) : Nibble := w.extractLsb' 4 4

/-- N = w[3:0] (R86). -/
def fieldN (w : Word) : Nibble := w.extractLsb' 0 4

/-- NN = w[7:0] (R86). -/
def fieldNN (w : Word) : Byte := w.extractLsb' 0 8

/-- NNN = w[11:0] (R86). -/
def fieldNNN (w : Word) : Addr12 := w.extractLsb' 0 12

/-- The words of the Unimplemented class that have no row in the opcode table (R94 b, c, d), by group. -/
inductive Undefined where
  /-- Group 8 with N in 0x8-0xD or 0xF. -/
  | group8 (w : Word)
  /-- Group E with NN neither 0x9E nor 0xA1. -/
  | groupE (w : Word)
  /-- Group F with NN none of the nine of R92. -/
  | groupF (w : Word)
deriving DecidableEq, Repr

/-- Why the decoder answers with no instruction. -/
inductive DecodeError where
  /-- Fewer than the two bytes every instruction has (R80). -/
  | truncated
  /-- A word of the Unimplemented class without a row of its own (R94). -/
  | undefined (u : Undefined)
deriving DecidableEq, Repr

/-- Group 0 compares the whole word (R89). -/
def decodeGroup0 (w : Word) : Instr :=
  if w = 0x00E0 then .cls
  else if w = 0x00EE then .ret
  else .sys (fieldNNN w)

/-- Group 8 selects by N (R90). -/
def decodeGroup8 (w : Word) : Except Undefined Instr :=
  match fieldN w with
  | 0x0#4 => .ok (.ldReg (fieldX w) (fieldY w))
  | 0x1#4 => .ok (.orReg (fieldX w) (fieldY w))
  | 0x2#4 => .ok (.andReg (fieldX w) (fieldY w))
  | 0x3#4 => .ok (.xorReg (fieldX w) (fieldY w))
  | 0x4#4 => .ok (.addReg (fieldX w) (fieldY w))
  | 0x5#4 => .ok (.subReg (fieldX w) (fieldY w))
  | 0x6#4 => .ok (.shr (fieldX w) (fieldY w))
  | 0x7#4 => .ok (.subn (fieldX w) (fieldY w))
  | 0xE#4 => .ok (.shl (fieldX w) (fieldY w))
  | _ => .error (.group8 w)

/-- Group E selects by NN (R91). -/
def decodeGroupE (w : Word) : Except Undefined Instr :=
  match fieldNN w with
  | 0x9E#8 => .ok (.skp (fieldX w))
  | 0xA1#8 => .ok (.sknp (fieldX w))
  | _ => .error (.groupE w)

/-- Group F selects by NN (R92). -/
def decodeGroupF (w : Word) : Except Undefined Instr :=
  match fieldNN w with
  | 0x07#8 => .ok (.ldVxDt (fieldX w))
  | 0x0A#8 => .ok (.ldVxK (fieldX w))
  | 0x15#8 => .ok (.ldDtVx (fieldX w))
  | 0x18#8 => .ok (.ldStVx (fieldX w))
  | 0x1E#8 => .ok (.addI (fieldX w))
  | 0x29#8 => .ok (.ldF (fieldX w))
  | 0x33#8 => .ok (.ldB (fieldX w))
  | 0x55#8 => .ok (.ldMemVx (fieldX w))
  | 0x65#8 => .ok (.ldVxMem (fieldX w))
  | _ => .error (.groupF w)

/-- The dispatcher's map of R88. Pure: it reads no state and moves no PC (R84). -/
def decodeWord (w : Word) : Except Undefined Instr :=
  match fieldG w with
  | 0x0#4 => .ok (decodeGroup0 w)
  | 0x1#4 => .ok (.jp (fieldNNN w))
  | 0x2#4 => .ok (.call (fieldNNN w))
  | 0x3#4 => .ok (.seImm (fieldX w) (fieldNN w))
  | 0x4#4 => .ok (.sneImm (fieldX w) (fieldNN w))
  | 0x5#4 => .ok (.seReg (fieldX w) (fieldY w) (fieldN w))
  | 0x6#4 => .ok (.ldImm (fieldX w) (fieldNN w))
  | 0x7#4 => .ok (.addImm (fieldX w) (fieldNN w))
  | 0x8#4 => decodeGroup8 w
  | 0x9#4 => .ok (.sneReg (fieldX w) (fieldY w) (fieldN w))
  | 0xA#4 => .ok (.ldI (fieldNNN w))
  | 0xB#4 => .ok (.jpV0 (fieldNNN w))
  | 0xC#4 => .ok (.rnd (fieldX w) (fieldNN w))
  | 0xD#4 => .ok (.drw (fieldX w) (fieldY w) (fieldN w))
  | 0xE#4 => decodeGroupE w
  | _ => decodeGroupF w

/-- Decode the first instruction of a byte sequence; it always consumes two bytes (R80). -/
def decodeBytes : List Byte → Except DecodeError (Instr × List Byte)
  | hi :: lo :: rest =>
    match decodeWord (wordOfBytes hi lo) with
    | .ok i => .ok (i, rest)
    | .error u => .error (.undefined u)
  | [] => .error .truncated
  | [_] => .error .truncated

/-- The instruction the decoder reads from a word numbered as spec/opcode_table.json numbers it. -/
def decodeTableWord (nbits w : Nat) : Option Instr :=
  match decodeBytes [highByte (BitVec.ofNat 16 (w % 2 ^ nbits)), lowByte (BitVec.ofNat 16 (w % 2 ^ nbits))] with
  | .ok (i, _) => some i
  | .error _ => none

/-- The format NNN: `{g, NNN}` (R85). -/
def packNNN (g : Nibble) (nnn : Addr12) : Word := g.setWidth 16 <<< 12 ||| nnn.setWidth 16

/-- The format XNN: `{g, X, NN}` (R85). -/
def packXNN (g x : Nibble) (nn : Byte) : Word :=
  g.setWidth 16 <<< 12 ||| x.setWidth 16 <<< 8 ||| nn.setWidth 16

/-- The format XYN: `{g, X, Y, N}` (R85). -/
def packXYN (g x y n : Nibble) : Word :=
  g.setWidth 16 <<< 12 ||| x.setWidth 16 <<< 8 ||| y.setWidth 16 <<< 4 ||| n.setWidth 16

/-- The word of an instruction, from the encodings of R111-R123, R141-R151, R173, R190-R204. -/
def encode : Instr → Word
  | .sys nnn => packNNN 0x0 nnn
  | .cls => 0x00E0
  | .ret => 0x00EE
  | .jp nnn => packNNN 0x1 nnn
  | .call nnn => packNNN 0x2 nnn
  | .seImm x nn => packXNN 0x3 x nn
  | .sneImm x nn => packXNN 0x4 x nn
  | .seReg x y n => packXYN 0x5 x y n
  | .ldImm x nn => packXNN 0x6 x nn
  | .addImm x nn => packXNN 0x7 x nn
  | .ldReg x y => packXYN 0x8 x y 0x0
  | .orReg x y => packXYN 0x8 x y 0x1
  | .andReg x y => packXYN 0x8 x y 0x2
  | .xorReg x y => packXYN 0x8 x y 0x3
  | .addReg x y => packXYN 0x8 x y 0x4
  | .subReg x y => packXYN 0x8 x y 0x5
  | .shr x y => packXYN 0x8 x y 0x6
  | .subn x y => packXYN 0x8 x y 0x7
  | .shl x y => packXYN 0x8 x y 0xE
  | .sneReg x y n => packXYN 0x9 x y n
  | .ldI nnn => packNNN 0xA nnn
  | .jpV0 nnn => packNNN 0xB nnn
  | .rnd x nn => packXNN 0xC x nn
  | .drw x y n => packXYN 0xD x y n
  | .skp x => packXNN 0xE x 0x9E
  | .sknp x => packXNN 0xE x 0xA1
  | .ldVxDt x => packXNN 0xF x 0x07
  | .ldVxK x => packXNN 0xF x 0x0A
  | .ldDtVx x => packXNN 0xF x 0x15
  | .ldStVx x => packXNN 0xF x 0x18
  | .addI x => packXNN 0xF x 0x1E
  | .ldF x => packXNN 0xF x 0x29
  | .ldB x => packXNN 0xF x 0x33
  | .ldMemVx x => packXNN 0xF x 0x55
  | .ldVxMem x => packXNN 0xF x 0x65

end Sys2Proof
end

