-- ==== Sys2Proof/Config.lean ====
section
/-! DEFINITION. What an implementation fixes (00_scope.md R7): the eleven parameters as one record, each policy an
inductive of its own, and the free value of the machine, the random byte (41_alu.md R123). The default values of R7
stand in Machine/Params.lean. -/

namespace Sys2Proof

/-- P_FONT_WRITE: a write of FX33 or FX55 into the glyph table (20_memory.md R60). -/
inductive FontWrite where
  | fault | ignore | store
deriving DecidableEq, Repr

/-- P_SHIFT_SOURCE: the register 8XY6 and 8XYE shift (41_alu.md R119, R121). -/
inductive ShiftSource where
  | vx | vy
deriving DecidableEq, Repr

/-- P_SHL_FLAG: the flag value of 8XYE (41_alu.md R121). -/
inductive ShlFlag where
  | raw | normalized
deriving DecidableEq, Repr

/-- P_VERTICAL: sprite rows at or beyond row 32 (43_display.md R174). -/
inductive Vertical where
  | clip | wrap | fault | unchecked
deriving DecidableEq, Repr

/-- P_TIMER_PHASE: the tick before or after the execute phase (44_timer_key_index.md R199). -/
inductive TimerPhase where
  | afterExecute | beforeExecute
deriving DecidableEq, Repr

/-- P_UNDEFINED: the Unimplemented class (30_encoding.md R94). -/
inductive UndefinedWords where
  | noop | fault
deriving DecidableEq, Repr

/-- P_KEY_INDEX: EX9E and EXA1 with VX above 0xF (44_timer_key_index.md R203). -/
inductive KeyIndex where
  | fault | lowNibble
deriving DecidableEq, Repr

/-- The configuration record of R7, with R7's domain as its last field, so that no record outside it exists. -/
structure Config where
  /-- P_DISPLAY_BASE. -/
  displayBase : Nat
  /-- P_STACK_BOTTOM. -/
  stackBottom : Nat
  /-- P_STACK_TOP, exclusive. -/
  stackTop : Nat
  /-- P_FONT, 80 bytes. -/
  font : Vector Byte 80
  fontWrite : FontWrite
  shiftSource : ShiftSource
  shlFlag : ShlFlag
  vertical : Vertical
  timerPhase : TimerPhase
  undefinedWords : UndefinedWords
  keyIndex : KeyIndex
  /-- The domain column of R7. -/
  domain : (0x050 ≤ displayBase ∧ displayBase + 0x100 ≤ 0x1000) ∧
    (stackBottom % 2 = 0 ∧ 0x050 ≤ stackBottom ∧ stackBottom < stackTop) ∧
    (stackTop ≤ 0x1000 ∧ (stackTop - stackBottom) % 2 = 0)
deriving DecidableEq, Repr

/-- DESIGN CHOICE (assumption 3), safe: the byte rand8 of the `k`-th draw of the machine. It has no body: "A proof
must hold for every value of rand8" (R123). -/
opaque Config.rand8 : Nat → Byte

end Sys2Proof
end

