-- ==== Sys2Proof/Machine/Params.lean ====
section
/-! DEFINITION. The default column of 00_scope.md R7 (decisions D1-D10) and the default glyph bytes of 10_state.md R37
(decision D3). -/

namespace Sys2Proof.Machine

/-- P_FONT's default: 16 glyphs of 5 bytes, digit d at 5*d (R36, R37). -/
def defaultFont : Vector Byte 80 := #v[
  0xF0, 0x90, 0x90, 0x90, 0xF0,
  0x20, 0x60, 0x20, 0x20, 0x70,
  0xF0, 0x10, 0xF0, 0x80, 0xF0,
  0xF0, 0x10, 0xF0, 0x10, 0xF0,
  0x90, 0x90, 0xF0, 0x10, 0x10,
  0xF0, 0x80, 0xF0, 0x10, 0xF0,
  0xF0, 0x80, 0xF0, 0x90, 0xF0,
  0xF0, 0x10, 0x20, 0x40, 0x40,
  0xF0, 0x90, 0xF0, 0x90, 0xF0,
  0xF0, 0x90, 0xF0, 0x10, 0xF0,
  0xF0, 0x90, 0xF0, 0x90, 0x90,
  0xE0, 0x90, 0xE0, 0x90, 0xE0,
  0xF0, 0x80, 0x80, 0x80, 0xF0,
  0xE0, 0x90, 0x90, 0x90, 0xE0,
  0xF0, 0x80, 0xF0, 0x80, 0xF0,
  0xF0, 0x80, 0xF0, 0x80, 0x80]

/-- The configuration of R7's default column. -/
def defaultConfig : Config where
  displayBase := 0xF00
  stackBottom := 0xEA0
  stackTop := 0xF00
  font := defaultFont
  fontWrite := .fault
  shiftSource := .vx
  shlFlag := .raw
  vertical := .clip
  timerPhase := .afterExecute
  undefinedWords := .noop
  keyIndex := .fault
  domain := by decide

/-- PC at reset: the entry point 0x200 (R35, 70_reset_and_hazards.md R261). -/
def entryPoint : Word := 0x0200

end Sys2Proof.Machine
end

