-- ==== Sys2Proof/Machine/State.lean ====
section
/-! DEFINITION. The machine state (10_state.md R20-R38), the reasons a step can stop, and the state after reset (R35). -/

namespace Sys2Proof.Machine

/-- RS (R30). -/
inductive RunState where
  | running | faulted
deriving DecidableEq, Repr

/-- The fatal causes (60_exceptions.md R232). -/
inductive Cause where
  | fetchOutOfRange
  | readOutOfRange
  | writeOutOfRange
  | stackOverflow
  | stackUnderflow
  | keyIndexOutOfRange
  | fontWrite
  | spriteRowOutOfRange
  | undefinedInstruction
deriving DecidableEq, Repr

/-- FR's triple (R30): the cause, the inst_pc of the faulting step, the offending address or index. -/
structure FaultRecord where
  cause : Cause
  pc : Word
  addr : Nat
deriving DecidableEq, Repr

/-- The status a step reports (60_exceptions.md R234). -/
inductive Status where
  | ok | waiting | selfLoop | unimplemented | fatal
deriving DecidableEq, Repr

/-- Memory: the bytes that differ from what an unlisted address reads as, addresses strictly rising (R50). -/
abbrev Memory := List Host.Cell

structure State where
  /-- V0..VF; VF is register 15 (R20, R21). -/
  v : Vector Byte 16
  /-- The index register I (R25). -/
  i : Word
  /-- The program counter (R23). -/
  pc : Word
  /-- The stack pointer (R26). -/
  sp : Word
  /-- The delay timer DT (R27). -/
  dt : Byte
  /-- The sound timer ST (R27). -/
  st : Byte
  /-- KEY[0..15]; true means pressed (R28). -/
  keys : Vector Bool 16
  /-- AW: true is AwaitingKey (R29). -/
  aw : Bool
  /-- RS (R30). -/
  rs : RunState
  /-- FR (R30): none is the spec's own value. -/
  fr : Option FaultRecord
  /-- M (R50). -/
  mem : Memory
  /-- The status port: "the status of the last step" (R34); assumption 2. -/
  status : Status
  /-- The model's own field: how many rand8 draws were made (assumption 3). -/
  draws : Nat
  /-- The configuration record of R7; no step changes it (assumption 1). -/
  cfg : Config
deriving DecidableEq, Repr

/-- Reasons a step can stop with no next state. A Fatal of the spec is NOT one of them: it is a next state with
RS = FAULTED (R231; assumption 4). -/
inductive Fault where
  /-- Raised by CALL alone, when SP is above 0x1000 and the record would lie outside the address space. R26's bound
  on SP excludes it, so no run from reset meets it. Safe (assumption 8). -/
  | stackOutsideMemory
deriving DecidableEq, Repr

/-- Reasons the model gives no meaning. -/
inductive Refusal where
  /-- Raised by an arm of exec whose instruction has no meaning yet; none is left. Safe. -/
  | notModelled (mnemonic : String)
  /-- Raised by the loader port alone, for an image longer than 3584 bytes (70_reset_and_hazards.md R263). Safe. -/
  | imageTooLong
deriving DecidableEq, Repr

/-- The machine right after reset, under the default configuration (R35). Memory lists nothing: an unlisted address
reads as R35 says. `status` and `draws` are the model's choice (assumptions 2 and 3). -/
def State.reset : State where
  v := Vector.replicate 16 0
  i := 0x0000
  pc := entryPoint
  sp := BitVec.ofNat 16 defaultConfig.stackTop
  dt := 0
  st := 0
  keys := Vector.replicate 16 false
  aw := false
  rs := .running
  fr := none
  mem := []
  status := .ok
  draws := 0
  cfg := defaultConfig

end Sys2Proof.Machine
end

