-- ==== Sys2Proof/Machine/Ops.lean ====
section
/-! DEFINITION. The named operations over memory and registers, the program counter, the reported status, and taking a
Fatal, the machine's only exception entry (60_exceptions.md R231). Only reset leaves it (R233, R239): see
`hostReset` in Machine/Ports.lean. -/

namespace Sys2Proof.Machine

/-- What a meaning answers. -/
abbrev Result := Host.Outcome State Fault Refusal

/-- What an unlisted address reads as: the reset contents, the glyph table below 0x050 and 0 elsewhere (R35, R36). -/
def unlisted (a : Nat) : Byte := if h : a < 80 then defaultFont[a] else 0

/-- M[a] (R50). -/
def Memory.read (m : Memory) (a : Nat) : Byte :=
  match m with
  | [] => unlisted a
  | c :: rest => if c.1 = a then c.2 else Memory.read rest a

/-- M[a] <- b, keeping the canonical form (R50). -/
def Memory.write (m : Memory) (a : Nat) (b : Byte) : Memory :=
  match m with
  | [] => if b = unlisted a then [] else [(a, b)]
  | c :: rest =>
    if a < c.1 then (if b = unlisted a then c :: rest else (a, b) :: c :: rest)
    else if a = c.1 then (if b = unlisted a then rest else (a, b) :: rest)
    else c :: Memory.write rest a b

/-- The canonical form: rising addresses inside the space, no entry equal to what an unlisted address reads as. -/
abbrev Memory.wf (m : Memory) : Prop :=
  m.Pairwise (fun c d => c.1 < d.1) ∧ ∀ c ∈ m, c.1 ≤ 0xFFF ∧ c.2 ≠ unlisted c.1

/-- V[x] (R9, R20). -/
def State.reg (s : State) (x : Nibble) : Byte := s.v[x.toNat]

/-- V[x] <- b. No register is hardwired (R20). -/
def State.setReg (s : State) (x : Nibble) (b : Byte) : State := { s with v := s.v.set x.toNat b }

/-- KEY[k] (R28). -/
def State.key (s : State) (k : Nibble) : Bool := s.keys[k.toNat]

/-- MemRead(a, 1) (00_scope.md R10). -/
def State.readByte (s : State) (a : Nat) : Byte := Memory.read s.mem a

/-- MemWrite(a, 1, b) (R10). -/
def State.writeByte (s : State) (a : Nat) (b : Byte) : State := { s with mem := Memory.write s.mem a b }

/-- MemRead(a, 2), big-endian (R10, R56). -/
def State.readWord (s : State) (a : Nat) : Word := wordOfBytes (s.readByte a) (s.readByte (a + 1))

/-- Single-byte writes to consecutive addresses, in rising order (R58). -/
def State.writeBytes (s : State) (a : Nat) (bs : List Byte) : State :=
  match bs with
  | [] => s
  | b :: rest => (s.writeByte a b).writeBytes (a + 1) rest

/-- `n` zero bytes (R141). -/
def zeroBytes (n : Nat) : List Byte := List.replicate n 0

/-- MemWrite(a, 2, w), big-endian (R10, R56). -/
def State.writeWord (s : State) (a : Nat) (w : Word) : State := s.writeBytes a [highByte w, lowByte w]

/-- PC <- t (R24). -/
def State.jump (s : State) (t : Word) : State := { s with pc := t }

/-- PC <- inst_pc + k (R24). -/
def State.advance (s : State) (k : Word) : State := { s with pc := s.pc + k }

/-- I <- a (R25). -/
def State.setI (s : State) (a : Word) : State := { s with i := a }

/-- `signal S` (00_scope.md R11): the status this step reports, without ending it. -/
def State.signal (s : State) (st : Status) : State := { s with status := st }

/-- `raise Fatal(cause, addr)` on the state before the step's changes (R11, R231): RS <- FAULTED,
FR <- (cause, inst_pc, addr), status FATAL, nothing else. -/
def State.raiseFatal (s : State) (cause : Cause) (addr : Nat) : State :=
  { s with rs := .faulted, fr := some { cause := cause, pc := s.pc, addr := addr }, status := .fatal }

/-- An instruction that completes and goes on to the next word: PC <- inst_pc + 2 (R24). -/
def completed (s : State) : Result := .next (s.advance 2)

/-- An instruction whose checks failed: it takes the Fatal (R231). -/
def fatal (s : State) (cause : Cause) (addr : Nat) : Result := .next (s.raiseFatal cause addr)

/-- The codes of R232. -/
def causeCode (c : Cause) : Nat :=
  match c with
  | .fetchOutOfRange => 1
  | .readOutOfRange => 2
  | .writeOutOfRange => 3
  | .stackOverflow => 4
  | .stackUnderflow => 5
  | .keyIndexOutOfRange => 6
  | .fontWrite => 7
  | .spriteRowOutOfRange => 8
  | .undefinedInstruction => 9

end Sys2Proof.Machine
end

