-- ==== Sys2Proof/Machine/Operands.lean ====
section
/-! DEFINITION. The operand forms: immediates widened by zeros (30_encoding.md R87), the shift source (41_alu.md R119),
the key index (44_timer_key_index.md R203), the ranges of memory an instruction addresses through I with their checks
(20_memory.md R55, R60), the register lists of FX55 and FX65, and the random draw (41_alu.md R123). -/

namespace Sys2Proof.Machine

/-- zext_16(NNN) (R87). -/
def zext16 (nnn : Addr12) : Word := nnn.setWidth 16

/-- A register value widened by zeros, for the 16-bit sums of R151, R191 and R192. -/
def zextByte (b : Byte) : Word := b.setWidth 16

/-- PC <- inst_pc + (cond ? 4 : 2) (42_control_flow.md R140). -/
def skipIf (s : State) (cond : Bool) : Result := .next (s.advance (if cond then 4 else 2))

/-- The operand 8XY6 and 8XYE shift, by P_SHIFT_SOURCE (R119, R121). -/
def shiftSource (s : State) (x y : Nibble) : Byte :=
  match s.cfg.shiftSource with
  | .vx => s.reg x
  | .vy => s.reg y

/-- key_index(v) (R203); none where it raises Fatal(KEY_INDEX_OUT_OF_RANGE, v). -/
def keyIndex (cfg : Config) (v : Byte) : Option Nibble :=
  if v.toNat ≤ 0xF then some (v.setWidth 4)
  else match cfg.keyIndex with
    | .fault => none
    | .lowNibble => some (v.setWidth 4)

/-- The least k with KEY[k] (R204). -/
def firstPressed (s : State) : Option Nibble :=
  ((List.range 16).map (BitVec.ofNat 4)).find? s.key

/-- The first address above 0xFFF among the `n` bytes from `a` on, none where all exist (R55). -/
def outOfRange (a n : Nat) : Option Nat :=
  if 0 < n ∧ 0xFFF < a + n - 1 then some (if 0xFFF < a then a else 0x1000) else none

/-- font_check(a, n) (R60): the first address below 0x050 among the `n` bytes from `a` on, where P_FONT_WRITE = FAULT. -/
def fontCheck (cfg : Config) (a n : Nat) : Option Nat :=
  match cfg.fontWrite with
  | .fault => if 0 < n ∧ a < 0x050 then some a else none
  | .ignore => none
  | .store => none

/-- The checks of FX33 and FX55, in their order (R193, R194, R236). -/
def storeCheck (cfg : Config) (a n : Nat) : Option (Cause × Nat) :=
  match outOfRange a n with
  | some e => some (.writeOutOfRange, e)
  | none =>
    match fontCheck cfg a n with
    | some e => some (.fontWrite, e)
    | none => none

/-- Whether a write of FX33 or FX55 to `a` is dropped: P_FONT_WRITE = IGNORE below 0x050 (R60). -/
def dropped (cfg : Config) (a : Nat) : Bool :=
  match cfg.fontWrite with
  | .ignore => decide (a < 0x050)
  | .fault => false
  | .store => false

/-- The byte writes of FX33 and FX55, in rising order, under the font policy (R60, R193, R194). -/
def storeBytes (s : State) (a : Nat) (bs : List Byte) : State :=
  match bs with
  | [] => s
  | b :: rest => storeBytes (if dropped s.cfg a then s else s.writeByte a b) (a + 1) rest

/-- V0 to VX inclusive, in order (R194). -/
def regsUpTo (s : State) (x : Nibble) : List Byte := s.v.toList.take (x.toNat + 1)

/-- V[0] .. V[n-1] <- M[a] .. M[a+n-1] (R195). -/
def loadRegs (s : State) (a n : Nat) : State :=
  (List.range n).foldl (fun t k => t.setReg (BitVec.ofNat 4 k) (s.readByte (a + k))) s

/-- The rand8 of this step (R34, R123): a free value, a fresh one for each draw (assumption 3). -/
def rand8 (s : State) : Byte := Config.rand8 s.draws

/-- The draw is used up: the next RND sees another free value (assumption 3). -/
def State.drawn (s : State) : State := { s with draws := s.draws + 1 }

end Sys2Proof.Machine
end

