-- ==== Sys2Proof/Machine/Flags.lean ====
section
/-! DEFINITION. The flag computations of 10_state.md R31, and the order of the two register writes (R21, 41_alu.md R110). -/

namespace Sys2Proof.Machine

/-- VF, register 15 (R21). -/
def regVF : Nibble := 0xF

/-- 8XY4: 1 if and only if the unclamped sum exceeds 255 (R117). -/
def carryFlag (a b : Byte) : Byte := if 255 < a.toNat + b.toNat then 1 else 0

/-- 8XY5 and 8XY7: 1 if and only if the minuend is at least the subtrahend, "no borrow" (R118, R120). -/
def noBorrowFlag (minuend subtrahend : Byte) : Byte := if subtrahend.toNat ≤ minuend.toNat then 1 else 0

/-- 8XY6: bit 0 of the source (R119). -/
def shiftRightFlag (src : Byte) : Byte := src &&& 0x01

/-- 8XYE: bit 7 of the source, as 0 or 0x80 under RAW, as 0 or 1 under NORMALIZED (R121). -/
def shiftLeftFlag (cfg : Config) (src : Byte) : Byte :=
  match cfg.shlFlag with
  | .raw => src &&& 0x80
  | .normalized => (src >>> 7) &&& 0x01

/-- V[X] first, V[F] last: when X is F the flag overwrites the result (R21, R110). -/
def State.setRegAndFlag (s : State) (x : Nibble) (result flag : Byte) : State :=
  (s.setReg x result).setReg regVF flag

end Sys2Proof.Machine
end

