-- ==== Sys2Proof/Machine/Alu.lean ====
section
/-! DEFINITION. The meanings of 41_alu.md: 6XNN, 7XNN, the group 8XY_, CXNN. None touches memory, none can raise Fatal (R110). -/

namespace Sys2Proof.Machine

/-- R111. -/
def execLdImm (x : Nibble) (nn : Byte) (s : State) : Result := completed (s.setReg x nn)

/-- R112. -/
def execAddImm (x : Nibble) (nn : Byte) (s : State) : Result := completed (s.setReg x (s.reg x + nn))

/-- R113. -/
def execLdReg (x y : Nibble) (s : State) : Result := completed (s.setReg x (s.reg y))

/-- R114. -/
def execOrReg (x y : Nibble) (s : State) : Result := completed (s.setReg x (s.reg x ||| s.reg y))

/-- R115. -/
def execAndReg (x y : Nibble) (s : State) : Result := completed (s.setReg x (s.reg x &&& s.reg y))

/-- R116. -/
def execXorReg (x y : Nibble) (s : State) : Result := completed (s.setReg x (s.reg x ^^^ s.reg y))

/-- R117. -/
def execAddReg (x y : Nibble) (s : State) : Result :=
  completed (s.setRegAndFlag x (s.reg x + s.reg y) (carryFlag (s.reg x) (s.reg y)))

/-- R118. -/
def execSubReg (x y : Nibble) (s : State) : Result :=
  completed (s.setRegAndFlag x (s.reg x - s.reg y) (noBorrowFlag (s.reg x) (s.reg y)))

/-- R119. -/
def execShr (x y : Nibble) (s : State) : Result :=
  completed (s.setRegAndFlag x (shiftSource s x y >>> 1) (shiftRightFlag (shiftSource s x y)))

/-- R120. -/
def execSubn (x y : Nibble) (s : State) : Result :=
  completed (s.setRegAndFlag x (s.reg y - s.reg x) (noBorrowFlag (s.reg y) (s.reg x)))

/-- R121. -/
def execShl (x y : Nibble) (s : State) : Result :=
  completed (s.setRegAndFlag x (shiftSource s x y <<< 1) (shiftLeftFlag s.cfg (shiftSource s x y)))

/-- R123: the byte is a free value (assumption 3). -/
def execRnd (x : Nibble) (nn : Byte) (s : State) : Result :=
  completed ((s.setReg x (rand8 s &&& nn)).drawn)

end Sys2Proof.Machine
end

