-- ==== Sys2Proof/Machine/Control.lean ====
section
/-! DEFINITION. The meanings of 42_control_flow.md: clear, return, the machine-code call, jump, call, the skips, the
indexed jump; and the undefined words of groups 8, E and F (30_encoding.md R94). -/

namespace Sys2Proof.Machine

/-- An Unimplemented word (R94, R235): under NOOP it signals UNIMPLEMENTED and moves PC by `k`; under FAULT it raises
UNDEFINED_INSTRUCTION with the word. -/
def unimplemented (w k : Word) (s : State) : Result :=
  match s.cfg.undefinedWords with
  | .noop => .next ((s.signal .unimplemented).advance k)
  | .fault => fatal s .undefinedInstruction w.toNat

/-- R94 (b), (c), (d): PC + 2 in group 8 (41_alu.md R122), PC unchanged in groups E and F. -/
def execUndefined (u : Undefined) (s : State) : Result :=
  match u with
  | .group8 w => unimplemented w 2 s
  | .groupE w => unimplemented w 0 s
  | .groupF w => unimplemented w 0 s

/-- R143. -/
def execSys (nnn : Addr12) (s : State) : Result := unimplemented (zext16 nnn) 0 s

/-- R141: 256 zero bytes from P_DISPLAY_BASE on. -/
def execCls (s : State) : Result := completed (s.writeBytes s.cfg.displayBase (zeroBytes 256))

/-- R142. -/
def execRet (s : State) : Result :=
  if s.cfg.stackTop < s.sp.toNat + 2 then fatal s .stackUnderflow s.sp.toNat
  else .next (State.jump { s with sp := s.sp + 2 } (s.readWord s.sp.toNat))

/-- R144, with the SELF_LOOP signal of R145. -/
def execJp (nnn : Addr12) (s : State) : Result :=
  .next ((if zext16 nnn = s.pc then s.signal .selfLoop else s).jump (zext16 nnn))

/-- R146. The record would lie outside memory only in a state R26 excludes (assumption 8). -/
def execCall (nnn : Addr12) (s : State) : Result :=
  if s.sp.toNat < s.cfg.stackBottom + 2 then fatal s .stackOverflow s.sp.toNat
  else if 0x1000 < s.sp.toNat then .fault .stackOutsideMemory
  else .next (State.jump ({ s with sp := s.sp - 2 }.writeWord (s.sp - 2).toNat (s.pc + 2)) (zext16 nnn))

/-- R147. -/
def execSeImm (x : Nibble) (nn : Byte) (s : State) : Result := skipIf s (s.reg x == nn)

/-- R148. -/
def execSneImm (x : Nibble) (nn : Byte) (s : State) : Result := skipIf s (s.reg x != nn)

/-- R149; N is ignored (R93). -/
def execSeReg (x y _n : Nibble) (s : State) : Result := skipIf s (s.reg x == s.reg y)

/-- R150; N is ignored (R93). -/
def execSneReg (x y _n : Nibble) (s : State) : Result := skipIf s (s.reg x != s.reg y)

/-- R151: always register 0, no masking. -/
def execJpV0 (nnn : Addr12) (s : State) : Result := .next (s.jump (zext16 nnn + zextByte (s.reg 0)))

end Sys2Proof.Machine
end

