-- ==== Sys2Proof/Machine/Display.lean ====
section
/-! DEFINITION. The XOR blitter and the collision detector: DXYN (43_display.md R170-R178). -/

namespace Sys2Proof.Machine

/-- The memory address of the byte that holds pixel (x, y): P_DISPLAY_BASE + 8*y + x/8 (R170, R171). -/
def pixelAddr (cfg : Config) (x y : Nat) : Nat := cfg.displayBase + 8 * y + x / 8

/-- The mask 0x80 >> (x mod 8) of pixel (x, y) in its byte (R171). -/
def pixelMask (x : Nat) : Byte := (0x80 : Byte) >>> (x % 8)

/-- XOR one sprite bit of 1 into pixel (x, y); a set pixel met there is a collision (R173, R175). -/
def xorPixel (x y : Nat) (s : State) : State :=
  State.writeByte
    (if s.readByte (pixelAddr s.cfg x y) &&& pixelMask x = 0 then s else s.setReg regVF 1)
    (pixelAddr s.cfg x y)
    (s.readByte (pixelAddr s.cfg x y) ^^^ pixelMask x)

/-- Column c of a row byte: clipped at 64 columns, drawn where the byte's bit 7 - c is 1 (R173). -/
def drawColumn (x0 y : Nat) (row : Byte) (s : State) (c : Nat) : State :=
  if 64 ≤ x0 + c then s
  else if row.getLsbD (7 - c) then xorPixel (x0 + c) y s
  else s

/-- The eight columns of one row byte, left to right (R173). -/
def drawRow (x0 y : Nat) (row : Byte) (s : State) : State :=
  (List.range 8).foldl (drawColumn x0 y row) s

/-- Where a row lands, by P_VERTICAL; none where it is not drawn (R174). Under FAULT a row at or beyond 32 never gets
here: the check came first. -/
def rowPlace (cfg : Config) (y : Nat) : Option Nat :=
  if y < 32 then some y
  else match cfg.vertical with
    | .clip => none
    | .wrap => some (y % 32)
    | .fault => none
    | .unchecked => some y

/-- Row r of the sprite: its byte is read once, when the row starts, after the earlier rows were drawn (R173, R176). -/
def drawSpriteRow (x0 y0 : Nat) (s : State) (r : Nat) : State :=
  match rowPlace s.cfg (y0 + r) with
  | none => s
  | some y => drawRow x0 y (s.readByte (s.i.toNat + r)) s

/-- Rows 0 to n-1, in order (R173). -/
def drawRows (x0 y0 n : Nat) (s : State) : State :=
  (List.range n).foldl (drawSpriteRow x0 y0) s

/-- The first sprite byte beyond 0xFFF (R173). -/
def spriteReadCheck (s : State) (n : Nat) : Option (Cause × Nat) :=
  match outOfRange s.i.toNat n with
  | some e => some (.readOutOfRange, e)
  | none => none

/-- P_VERTICAL = FAULT: the first row at or beyond 32 (R173, R174). -/
def spriteRowCheck (cfg : Config) (y0 n : Nat) : Option (Cause × Nat) :=
  match cfg.vertical with
  | .fault => if 0 < n ∧ 32 ≤ y0 + n - 1 then some (.spriteRowOutOfRange, max y0 32) else none
  | .clip => none
  | .wrap => none
  | .unchecked => none

/-- The destination addresses of every pixel position of a draw that is not clipped, row by row, column by column. -/
def spriteTargets (cfg : Config) (x0 y0 n : Nat) : List Nat :=
  (List.range n).flatMap fun r =>
    ((List.range 8).filter fun c => decide (x0 + c < 64)).map fun c => pixelAddr cfg (x0 + c) (y0 + r)

/-- P_VERTICAL = UNCHECKED: the first destination address above 0xFFF (R173, R174). -/
def spriteWriteCheck (cfg : Config) (x0 y0 n : Nat) : Option (Cause × Nat) :=
  match cfg.vertical with
  | .unchecked =>
    match (spriteTargets cfg x0 y0 n).find? (fun a => decide (0xFFF < a)) with
    | some a => some (.writeOutOfRange, a)
    | none => none
  | .clip => none
  | .wrap => none
  | .fault => none

/-- The checks of DXYN, in the order of R173 and R236, all before any change. -/
def spriteCheck (s : State) (x0 y0 n : Nat) : Option (Cause × Nat) :=
  ((spriteReadCheck s n).or (spriteRowCheck s.cfg y0 n)).or (spriteWriteCheck s.cfg x0 y0 n)

/-- R173. VX and VY are read before VF is reset to 0. -/
def execDrw (x y n : Nibble) (s : State) : Result :=
  match spriteCheck s (s.reg x).toNat (s.reg y).toNat n.toNat with
  | some (cause, addr) => fatal s cause addr
  | none => completed (drawRows (s.reg x).toNat (s.reg y).toNat n.toNat (s.setReg regVF 0))

end Sys2Proof.Machine
end

