-- ==== Sys2Proof/Machine/Index.lean ====
section
/-! DEFINITION. The meanings of 44_timer_key_index.md, sections 1 and 2: the index register and the memory transfers. -/

namespace Sys2Proof.Machine

/-- R190. -/
def execLdI (nnn : Addr12) (s : State) : Result := completed (s.setI (zext16 nnn))

/-- R191: modulo 2^16, no flag. -/
def execAddI (x : Nibble) (s : State) : Result := completed (s.setI (s.i + zextByte (s.reg x)))

/-- R192: the full register value, not masked. -/
def execLdF (x : Nibble) (s : State) : Result := completed (s.setI (zextByte (s.reg x) * 5))

/-- The hundreds, tens and ones digits of a byte (R193). -/
def bcdDigits (v : Byte) : List Byte := [v / 100, v / 10 % 10, v % 10]

/-- R193: I unchanged. -/
def execLdB (x : Nibble) (s : State) : Result :=
  match storeCheck s.cfg s.i.toNat 3 with
  | some (cause, addr) => fatal s cause addr
  | none => completed (storeBytes s s.i.toNat (bcdDigits (s.reg x)))

/-- I <- (I + X + 1) mod 2^16, the bookkeeping FX55 and FX65 share (R194, R195). -/
def advanceI (x : Nibble) (s : State) : State := s.setI (s.i + x.setWidth 16 + 1)

/-- R194. -/
def execLdMemVx (x : Nibble) (s : State) : Result :=
  match storeCheck s.cfg s.i.toNat (x.toNat + 1) with
  | some (cause, addr) => fatal s cause addr
  | none => completed (advanceI x (storeBytes s s.i.toNat (regsUpTo s x)))

/-- R195. -/
def execLdVxMem (x : Nibble) (s : State) : Result :=
  match outOfRange s.i.toNat (x.toNat + 1) with
  | some addr => fatal s .readOutOfRange addr
  | none => completed (advanceI x (loadRegs s s.i.toNat (x.toNat + 1)))

end Sys2Proof.Machine
end

