-- ==== Sys2Proof/Machine/TimerKey.lean ====
section
/-! DEFINITION. The meanings of 44_timer_key_index.md, sections 3 and 4: the timer moves, the key skips, the key-wait
state machine. -/

namespace Sys2Proof.Machine

/-- R196. -/
def execLdVxDt (x : Nibble) (s : State) : Result := completed (s.setReg x s.dt)

/-- R197: the tick of the same step is the step's, not the instruction's. -/
def execLdDtVx (x : Nibble) (s : State) : Result := completed { s with dt := s.reg x }

/-- R198. -/
def execLdStVx (x : Nibble) (s : State) : Result := completed { s with st := s.reg x }

/-- R201. -/
def execSkp (x : Nibble) (s : State) : Result :=
  match keyIndex s.cfg (s.reg x) with
  | none => fatal s .keyIndexOutOfRange (s.reg x).toNat
  | some k => skipIf s (s.key k)

/-- R202. -/
def execSknp (x : Nibble) (s : State) : Result :=
  match keyIndex s.cfg (s.reg x) with
  | none => fatal s .keyIndexOutOfRange (s.reg x).toNat
  | some k => skipIf s (!s.key k)

/-- AW <- b (R29). -/
def State.setAw (s : State) (b : Bool) : State := { s with aw := b }

/-- R204: the first entry only arms AW; a later entry takes the least pressed key, if there is one. -/
def execLdVxK (x : Nibble) (s : State) : Result :=
  if s.aw then
    match firstPressed s with
    | some k => completed ((s.setReg x (k.setWidth 8)).setAw false)
    | none => .next (s.signal .waiting)
  else .next ((s.setAw true).signal .waiting)

end Sys2Proof.Machine
end

