-- ==== Sys2Proof/Machine/Cycle.lean ====
section
/-! DEFINITION. The parts of the step cycle (30_encoding.md R81-R83): the fetch, the decode, the timer tick
(44_timer_key_index.md R199), the commit or discard of a step (60_exceptions.md R231), and a step of a faulted
machine (R233). Machine/Step.lean puts them in order. -/

namespace Sys2Proof.Machine

/-- The address recorded by FETCH_OUT_OF_RANGE, none where both bytes of the word exist (R81). -/
def fetchCheck (pc : Word) : Option Nat :=
  if 0xFFE < pc.toNat then some (if pc.toNat = 0xFFF then pc.toNat + 1 else pc.toNat) else none

/-- w <- MemRead(PC, 2) (R81). -/
def fetchWord (s : State) : Word := s.readWord s.pc.toNat

/-- Store a word where the next fetch reads it (R81, 20_memory.md R56); where no fetch can succeed, nothing is stored. -/
def placeWord (s : State) (w : Word) : State :=
  match fetchCheck s.pc with
  | some _ => s
  | none => s.writeWord s.pc.toNat w

/-- Execute the fetched word: an instruction of the table, or an undefined word of R94. -/
def dispatch (w : Word) (s : State) : Result :=
  match decodeWord w with
  | .ok i => exec i s
  | .error u => execUndefined u s

/-- Fetch, decode, execute (R83). -/
def fetchAndExecute (s : State) : Result :=
  match fetchCheck s.pc with
  | some addr => fatal s .fetchOutOfRange addr
  | none => dispatch (fetchWord s) s

/-- A timer counts down to zero and stays there (10_state.md R27). -/
def tickDown (t : Byte) : Byte := if t = 0 then 0 else t - 1

/-- tick_timers() (R199). -/
def tickTimers (s : State) : State := { s with dt := tickDown s.dt, st := tickDown s.st }

/-- The start of a step: status <- OK, and the tick where P_TIMER_PHASE = BEFORE_EXECUTE (R83). -/
def beginStep (s : State) : State :=
  match s.cfg.timerPhase with
  | .beforeExecute => tickTimers (s.signal .ok)
  | .afterExecute => s.signal .ok

/-- The end of a step that raised nothing: the tick where P_TIMER_PHASE = AFTER_EXECUTE (R83). -/
def endStep (s : State) : State :=
  match s.cfg.timerPhase with
  | .beforeExecute => s
  | .afterExecute => tickTimers s

/-- A step that raised Fatal: the state before the step, with the latched fault of `t` and nothing else (R83, R231). -/
def discardStep (s t : State) : State := { s with rs := t.rs, fr := t.fr, status := t.status }

/-- The result of a step from `s` whose execute phase answered `r`. -/
def commit (s : State) (r : Result) : Result :=
  match r with
  | .next t =>
    match t.rs with
    | .running => .next (endStep t)
    | .faulted => .next (discardStep s t)
  | .fault f => .fault f
  | .refused e => .refused e

/-- A step of a faulted machine: no change, the status port reports FATAL (R233). -/
def idleStep (s : State) : State := s.signal .fatal

end Sys2Proof.Machine
end

