-- ==== Sys2Proof/Machine/Step.lean ====
section
/-! DEFINITION. One step request (30_encoding.md R82, R83), and the placing of one instruction where the next step
fetches it. -/

namespace Sys2Proof.Machine

/-- R83: a faulted machine does nothing; otherwise begin, fetch, decode, execute, and commit or discard. -/
def step (s : State) : Host.Outcome State Fault Refusal :=
  match s.rs with
  | .faulted => .next (idleStep s)
  | .running => commit s (fetchAndExecute (beginStep s))

/-- The word stored big-endian at PC, as the loader's port stores it (70_reset_and_hazards.md R263; assumption 10). -/
def State.withFetchWord (s : State) (nbits w : Nat) : State :=
  placeWord s (BitVec.ofNat 16 (w % 2 ^ nbits))

end Sys2Proof.Machine
end

