-- ==== Sys2Proof/Machine/Ports.lean ====
section
/-! DEFINITION. The ports of the block beside step (10_state.md R34): reset, key_set and load in; display, sound, status
and fault out. "Every host action takes place between two steps, never during one" (R34). -/

namespace Sys2Proof.Machine

/-- Reset under any configuration: all zero, then the glyph table, then PC and SP (70_reset_and_hazards.md R260). -/
def resetWith (c : Config) : State :=
  State.writeBytes { State.reset with sp := BitVec.ofNat 16 c.stackTop, cfg := c } 0 c.font.toList

/-- The reset port: no state survives but the machine's own configuration and the count of draws already used up,
which is the model's (R260; assumption 3). -/
def hostReset (s : State) : State := { resetWith s.cfg with draws := s.draws }

/-- key_set(k, b) (R34, 44_timer_key_index.md R205). -/
def keySet (k : Nibble) (b : Bool) (s : State) : State := { s with keys := s.keys.set k.toNat b }

/-- load(a, v): M[a] <- v, with no font policy (R34, R263). -/
def loadByte (a : Addr12) (b : Byte) (s : State) : State := s.writeByte a.toNat b

/-- The loader: the image verbatim from 0x200 on; an image over 3584 bytes has no meaning (R263). -/
def loadImage (image : List Byte) (s : State) : Result :=
  if 3584 < image.length then .refused .imageTooLong else .next (s.writeBytes 0x200 image)

/-- Display byte k (43_display.md R170). -/
def displayByte (s : State) (k : Nat) : Byte := s.readByte (s.cfg.displayBase + k)

/-- The display output port: display bytes 0 to 255 (R34, R172). -/
def display (s : State) : List Byte := (List.range 256).map (displayByte s)

/-- Pixel (x, y), set when its bit is 1 (R171). -/
def pixel (s : State) (x y : Nat) : Bool := (displayByte s (8 * y + x / 8)).getLsbD (7 - x % 8)

/-- The sound output port: ST, "nonzero = sound active" (44_timer_key_index.md R200). -/
def sound (s : State) : Byte := s.st

/-- The status port (R34, 60_exceptions.md R234). -/
def statusPort (s : State) : Status := s.status

/-- The fault port: RS and FR (R34). -/
def faultPort (s : State) : RunState × Option FaultRecord := (s.rs, s.fr)

/-- What the host can do between two steps, and the step request itself (R34, R265). -/
inductive HostEvent where
  | step
  | keySet (k : Nibble) (b : Bool)
  | load (a : Addr12) (b : Byte)
  | reset
deriving DecidableEq, Repr

/-- One event of the machine together with its host. -/
def hostStep (e : HostEvent) (s : State) : Result :=
  match e with
  | .step => step s
  | .keySet k b => .next (keySet k b s)
  | .load a b => .next (loadByte a b s)
  | .reset => .next (hostReset s)

end Sys2Proof.Machine
end

