-- ==== Sys2Proof/Safety.lean ====
section
/-! DEFINITION. What counts as a safe run, in the terms the claims use: the invariant of every reachable state, a step
that completes, and what an instruction leaves alone. -/

namespace Sys2Proof.Machine

/-- 10_state.md R26: P_STACK_BOTTOM <= SP <= P_STACK_TOP, and SP - P_STACK_BOTTOM is even. -/
abbrev StackInBounds (s : State) : Prop :=
  s.cfg.stackBottom ≤ s.sp.toNat ∧ s.sp.toNat ≤ s.cfg.stackTop ∧ (s.sp.toNat - s.cfg.stackBottom) % 2 = 0

/-- R30, R231: a fault record is latched exactly in the faulted state. -/
abbrev FaultLatched (s : State) : Prop := s.rs = .faulted ↔ s.fr ≠ none

/-- The invariant of the machine: memory canonical and inside the space, the stack pointer in its region, the fault
record where a fault is. -/
abbrev State.Inv (s : State) : Prop := Memory.wf s.mem ∧ StackInBounds s ∧ FaultLatched s

/-- A step that raises nothing: it answers a next state that is still running. -/
def StepCompletes (s t : State) : Prop := step s = .next t ∧ t.rs = .running

/-- All registers but those listed are as before. -/
def RegsKeptBut (ds : List Nibble) (s t : State) : Prop := ∀ r, r ∉ ds → t.reg r = s.reg r

/-- Every byte of memory reads as before. -/
def MemKept (s t : State) : Prop := ∀ a, t.readByte a = s.readByte a

/-- Every byte of memory outside the `n` bytes from `a` on reads as before. -/
def MemKeptOutside (a n : Nat) (s t : State) : Prop := ∀ b, (b < a ∨ a + n ≤ b) → t.readByte b = s.readByte b

/-- Both timers are as before. -/
def TimersKept (s t : State) : Prop := t.dt = s.dt ∧ t.st = s.st

/-- The keys, the run state, the fault record and the configuration are as before. -/
def SystemKept (s t : State) : Prop := t.keys = s.keys ∧ t.rs = s.rs ∧ t.fr = s.fr ∧ t.cfg = s.cfg

/-- Everything but the registers, memory, I, SP, AW and PC is as before. -/
def RestKept (s t : State) : Prop :=
  TimersKept s t ∧ SystemKept s t ∧ t.status = s.status ∧ t.draws = s.draws

/-- Nothing but the registers `ds` and PC may change. -/
def OnlyRegs (ds : List Nibble) (s t : State) : Prop :=
  RegsKeptBut ds s t ∧ MemKept s t ∧ t.i = s.i ∧ t.sp = s.sp ∧ t.aw = s.aw ∧ RestKept s t

/-- The state that takes a Fatal: `s` with RS, FR and the status latched, nothing else (R231). -/
def faultedState (s : State) (cause : Cause) (addr : Nat) : State :=
  { s with rs := .faulted, fr := some { cause := cause, pc := s.pc, addr := addr }, status := .fatal }

end Sys2Proof.Machine
end

