-- ==== Sys2Proof/Certificates/Slice0/Obligations.lean ====
section
/-! DEFINITION. The statements for the provers, one for each rule of the spec they formalise, in the spec's own terms:
words as the rules write them, results as natural numbers, memory byte by byte. -/

namespace Sys2Proof.Claims

open Sys2Proof.Machine

/-- The word `base | NNN`, as R144, R146, R151 and R190 write it. -/
def wordNNN (base : Word) (nnn : Addr12) : Word := base ||| nnn.setWidth 16

/-- The word `base | X<<8 | NN`, as R111, R112, R123, R147 and R148 write it. -/
def wordXNN (base : Word) (x : Nibble) (nn : Byte) : Word := base ||| x.setWidth 16 <<< 8 ||| nn.setWidth 16

/-- The word `base | X<<8 | Y<<4`, as R113 to R121 write it. -/
def wordXY (base : Word) (x y : Nibble) : Word := base ||| x.setWidth 16 <<< 8 ||| y.setWidth 16 <<< 4

/-- The word `base | X<<8 | Y<<4 | N`, as R149, R150 and R173 write it. -/
def wordXYN (base : Word) (x y n : Nibble) : Word := wordXY base x y ||| n.setWidth 16

/-- The word `base | X<<8`, as R191 to R204 write it. -/
def wordX (base : Word) (x : Nibble) : Word := base ||| x.setWidth 16 <<< 8

/-- The two bytes of `w` stand at PC and PC + 1, inside memory, in a running machine: the next step fetches `w` (R81). -/
def Fetches (s : State) (w : Word) : Prop :=
  s.rs = .running ∧ s.pc.toNat + 1 ≤ 0xFFF ∧
    w.toNat = (s.readByte s.pc.toNat).toNat * 256 + (s.readByte (s.pc.toNat + 1)).toNat

/-- One tick of a timer on its value: down by one, floor at zero (R199). -/
def ticked (t : Byte) : Nat := t.toNat - 1

/-- The operand of 8XY6 and 8XYE (R119, R121). -/
def shiftOperand (s : State) (x y : Nibble) : Byte := if s.cfg.shiftSource = .vx then s.reg x else s.reg y

/-- `k` is key_index(v) (R203). -/
def IsKeyIndex (cfg : Config) (v : Byte) (k : Nibble) : Prop :=
  (v.toNat ≤ 0xF ∧ k.toNat = v.toNat) ∨
    (0xF < v.toNat ∧ cfg.keyIndex = .lowNibble ∧ k.toNat = v.toNat % 16)

/-- key_index(v) raises Fatal (R203). -/
def BadKeyIndex (cfg : Config) (v : Byte) : Prop := 0xF < v.toNat ∧ cfg.keyIndex = .fault

/-- font_check(a, n) raises Fatal at its first byte (R60). -/
def FontFault (cfg : Config) (a : Nat) : Prop := cfg.fontWrite = .fault ∧ a < 0x050

/-- The store of byte `b` to `a` by FX33 or FX55 is as R60 says: written, or dropped under IGNORE below 0x050. -/
def StoredAs (s t : State) (a : Nat) (b : Byte) : Prop :=
  if s.cfg.fontWrite = .ignore ∧ a < 0x050 then t.readByte a = s.readByte a else t.readByte a = b

/-- Sprite row r of a draw at row y0 is drawn at screen row y (R173, R174). -/
def Lands (cfg : Config) (y0 r y : Nat) : Prop :=
  (y0 + r < 32 ∧ y = y0 + r) ∨
    (32 ≤ y0 + r ∧ ((cfg.vertical = .wrap ∧ y = (y0 + r) % 32) ∨ (cfg.vertical = .unchecked ∧ y = y0 + r)))

/-- DXYN's first check fails: a sprite byte lies beyond 0xFFF (R173). -/
def DrwReadFault (s : State) (n : Nat) : Prop := 0 < n ∧ 0xFFF < s.i.toNat + n - 1

/-- DXYN's second check fails (R173). -/
def DrwRowFault (s : State) (y0 n : Nat) : Prop := s.cfg.vertical = .fault ∧ 0 < n ∧ 32 ≤ y0 + n - 1

/-- The address of the byte of column x0 + c and row y0 + r (R173). -/
def drwTarget (s : State) (x0 y0 r c : Nat) : Nat := s.cfg.displayBase + 8 * (y0 + r) + (x0 + c) / 8

/-- DXYN's third check fails at column c of row r, and at no earlier position, row by row and column by column (R173). -/
def DrwWriteFault (s : State) (x0 y0 n r c : Nat) : Prop :=
  s.cfg.vertical = .unchecked ∧ r < n ∧ c < 8 ∧ x0 + c < 64 ∧ 0xFFF < drwTarget s x0 y0 r c ∧
    ∀ r' c', c' < 8 → x0 + c' < 64 → (r' < r ∨ (r' = r ∧ c' < c)) → drwTarget s x0 y0 r' c' ≤ 0xFFF

/-- A set sprite bit, drawn, met a pixel set before the draw (R175). -/
def Collides (s : State) (x0 y0 n : Nat) (row : Nat → Byte) : Prop :=
  ∃ r c y, r < n ∧ c < 8 ∧ Lands s.cfg y0 r y ∧ x0 + c < 64 ∧ (row r).getLsbD (7 - c) = true ∧
    pixel s (x0 + c) y = true

/-- The registers an instruction writes (10_state.md R22). -/
def writesRegs : Instr → List Nibble
  | .ldImm x _ => [x]
  | .addImm x _ => [x]
  | .ldReg x _ => [x]
  | .orReg x _ => [x]
  | .andReg x _ => [x]
  | .xorReg x _ => [x]
  | .addReg x _ => [x, 0xF]
  | .subReg x _ => [x, 0xF]
  | .shr x _ => [x, 0xF]
  | .subn x _ => [x, 0xF]
  | .shl x _ => [x, 0xF]
  | .rnd x _ => [x]
  | .drw _ _ _ => [0xF]
  | .ldVxDt x => [x]
  | .ldVxK x => [x]
  | .ldVxMem x => (List.range (x.toNat + 1)).map (BitVec.ofNat 4)
  | _ => []

/-- The registers an instruction reads, under a configuration (R22). -/
def readsRegs (cfg : Config) : Instr → List Nibble
  | .seImm x _ => [x]
  | .sneImm x _ => [x]
  | .skp x => [x]
  | .sknp x => [x]
  | .seReg x y _ => [x, y]
  | .sneReg x y _ => [x, y]
  | .addImm x _ => [x]
  | .ldReg _ y => [y]
  | .orReg x y => [x, y]
  | .andReg x y => [x, y]
  | .xorReg x y => [x, y]
  | .addReg x y => [x, y]
  | .subReg x y => [x, y]
  | .subn x y => [x, y]
  | .shr x y => if cfg.shiftSource = .vx then [x] else [y]
  | .shl x y => if cfg.shiftSource = .vx then [x] else [y]
  | .jpV0 _ => [0x0]
  | .drw x y _ => [x, y]
  | .ldDtVx x => [x]
  | .ldStVx x => [x]
  | .addI x => [x]
  | .ldF x => [x]
  | .ldB x => [x]
  | .ldMemVx x => (List.range (x.toNat + 1)).map (BitVec.ofNat 4)
  | _ => []

/-- The addresses an instruction may write, from the state it executes in (20_memory.md R51): the display for CLS, the
record for CALL, the bytes from I on for FX33 and FX55, the bytes of the drawn columns for DXYN. -/
def mayWrite (i : Instr) (s : State) (a : Nat) : Prop :=
  match i with
  | .cls => s.cfg.displayBase ≤ a ∧ a < s.cfg.displayBase + 256
  | .call _ => (s.sp - 2).toNat ≤ a ∧ a < (s.sp - 2).toNat + 2
  | .ldB _ => s.i.toNat ≤ a ∧ a < s.i.toNat + 3
  | .ldMemVx x => s.i.toNat ≤ a ∧ a < s.i.toNat + (x.toNat + 1)
  | .drw x y n => ∃ r c z, r < n.toNat ∧ c < 8 ∧ (s.reg x).toNat + c < 64 ∧ Lands s.cfg (s.reg y).toNat r z ∧
      a = s.cfg.displayBase + 8 * z + ((s.reg x).toNat + c) / 8
  | _ => False

end Sys2Proof.Claims

open Sys2Proof Sys2Proof.Machine Sys2Proof.Claims

/-! Reset, configuration, decoding, the step. -/

/-- R35: the state after reset, under every configuration; the host's reset state is that of the default one. The value
of PC is an inference the spec marks as its own (R35, row PC: "derived: §3 loads the program at 0x200, and §8's scenario
ends at PC=0x206 after three 2-byte instructions"). The status port and the count of draws are not stated. -/
def Obligations.ResetState : Prop :=
  State.reset = resetWith defaultConfig ∧
  ∀ c : Config, (∀ r, (resetWith c).reg r = 0) ∧ (resetWith c).i = 0x0000 ∧ (resetWith c).pc = 0x0200 ∧
    (resetWith c).sp.toNat = c.stackTop ∧ (resetWith c).dt = 0 ∧ (resetWith c).st = 0 ∧
    (∀ k, (resetWith c).key k = false) ∧ (resetWith c).aw = false ∧ (resetWith c).rs = .running ∧
    (resetWith c).fr = none ∧ (resetWith c).cfg = c ∧
    (∀ a, (h : a < 80) → (resetWith c).readByte a = c.font[a]) ∧
    (∀ a, 0x50 ≤ a → (resetWith c).readByte a = 0)

/-- R7: the default column, and the domain of every configuration. -/
def Obligations.ParameterDefaultsAndDomains : Prop :=
  (defaultConfig.displayBase = 0xF00 ∧ defaultConfig.stackBottom = 0xEA0 ∧ defaultConfig.stackTop = 0xF00 ∧
    defaultConfig.fontWrite = .fault ∧ defaultConfig.shiftSource = .vx ∧ defaultConfig.shlFlag = .raw ∧
    defaultConfig.vertical = .clip ∧ defaultConfig.timerPhase = .afterExecute ∧
    defaultConfig.undefinedWords = .noop ∧ defaultConfig.keyIndex = .fault ∧
    defaultConfig.font.toList =
      [0xF0, 0x90, 0x90, 0x90, 0xF0] ++ [0x20, 0x60, 0x20, 0x20, 0x70] ++ [0xF0, 0x10, 0xF0, 0x80, 0xF0] ++
      [0xF0, 0x10, 0xF0, 0x10, 0xF0] ++ [0x90, 0x90, 0xF0, 0x10, 0x10] ++ [0xF0, 0x80, 0xF0, 0x10, 0xF0] ++
      [0xF0, 0x80, 0xF0, 0x90, 0xF0] ++ [0xF0, 0x10, 0x20, 0x40, 0x40] ++ [0xF0, 0x90, 0xF0, 0x90, 0xF0] ++
      [0xF0, 0x90, 0xF0, 0x10, 0xF0] ++ [0xF0, 0x90, 0xF0, 0x90, 0x90] ++ [0xE0, 0x90, 0xE0, 0x90, 0xE0] ++
      [0xF0, 0x80, 0x80, 0x80, 0xF0] ++ [0xE0, 0x90, 0x90, 0x90, 0xE0] ++ [0xF0, 0x80, 0xF0, 0x80, 0xF0] ++
      [0xF0, 0x80, 0xF0, 0x80, 0x80]) ∧
  ∀ c : Config, 0x050 ≤ c.displayBase ∧ c.displayBase + 0x100 ≤ 0x1000 ∧ c.stackBottom % 2 = 0 ∧
    0x050 ≤ c.stackBottom ∧ c.stackBottom < c.stackTop ∧ c.stackTop ≤ 0x1000 ∧
    (c.stackTop - c.stackBottom) % 2 = 0

/-- The decode table of 95_test_vectors.md. -/
def Obligations.DecodeVectors : Prop :=
  decodeWord 0xD015 = .ok (.drw 0x0 0x1 0x5) ∧ decodeWord 0x8AB6 = .ok (.shr 0xA 0xB) ∧
  decodeWord 0x00E0 = .ok .cls ∧ decodeWord 0x00E1 = .ok (.sys 0x0E1) ∧ decodeWord 0x0000 = .ok (.sys 0x000) ∧
  decodeWord 0x5AB3 = .ok (.seReg 0xA 0xB 0x3) ∧ decodeWord 0x9AB0 = .ok (.sneReg 0xA 0xB 0x0) ∧
  decodeWord 0x800F = .error (.group8 0x800F) ∧ decodeWord 0xE09F = .error (.groupE 0xE09F) ∧
  decodeWord 0xF0FF = .error (.groupF 0xF0FF) ∧ decodeWord 0xFA65 = .ok (.ldVxMem 0xA)

/-- No bit of a well-formed instruction is lost by its encoding (R85, R86, R95). -/
def Obligations.DecodeOfEncode : Prop := ∀ i : Instr, i.wf = true → decodeWord (encode i) = .ok i

/-- R95: "Every one of the 65536 words is exactly one of the 35 instructions" or a member of the Unimplemented class: a
decoded word is the encoding of one well-formed instruction, and every other word is in one of R94's groups. -/
def Obligations.EveryWordIsOneThing : Prop :=
  (∀ w i, decodeWord w = .ok i ↔ i.wf = true ∧ encode i = w) ∧
  (∀ w u, decodeWord w = .error u ↔
    (u = .group8 w ∧ fieldG w = 0x8 ∧ fieldN w ∈ ([0x8, 0x9, 0xA, 0xB, 0xC, 0xD, 0xF] : List Nibble)) ∨
    (u = .groupE w ∧ fieldG w = 0xE ∧ fieldNN w ∉ ([0x9E, 0xA1] : List Byte)) ∨
    (u = .groupF w ∧ fieldG w = 0xF ∧
      fieldNN w ∉ ([0x07, 0x0A, 0x15, 0x18, 0x1E, 0x29, 0x33, 0x55, 0x65] : List Byte)))

/-- A step runs the decoded instruction (R83): the status is set to OK and, under BEFORE_EXECUTE, the timers tick; exec
runs; a state still running is ticked under AFTER_EXECUTE; a Fatal discards the step but for what it latched; exec refuses
nothing. -/
def Obligations.StepRunsDecodedInstruction : Prop :=
  ∀ (s : State) (w : Word) (i : Instr), Fetches s w → decodeWord w = .ok i → i.wf = true ∧
    ∃ b, b.dt.toNat = (if s.cfg.timerPhase = .beforeExecute then ticked s.dt else s.dt.toNat) ∧
      b.st.toNat = (if s.cfg.timerPhase = .beforeExecute then ticked s.st else s.st.toNat) ∧
      b = { s with status := .ok, dt := b.dt, st := b.st } ∧
      (∀ t, exec i b = .next t → t.rs = .running → ∃ u, step s = .next u ∧
        u.dt.toNat = (if t.cfg.timerPhase = .afterExecute then ticked t.dt else t.dt.toNat) ∧
        u.st.toNat = (if t.cfg.timerPhase = .afterExecute then ticked t.st else t.st.toNat) ∧
        u = { t with dt := u.dt, st := u.st }) ∧
      (∀ t, exec i b = .next t → t.rs = .faulted →
        step s = .next { s with rs := .faulted, fr := t.fr, status := t.status }) ∧
      (∀ f, exec i b = .fault f → step s = .fault f) ∧ (∀ r, exec i b ≠ .refused r)

/-- R81: the fetch range check. -/
def Obligations.FetchOutOfRange : Prop :=
  ∀ s : State, s.rs = .running → 0xFFE < s.pc.toNat →
    step s = .next (faultedState s .fetchOutOfRange (if s.pc.toNat = 0xFFF then s.pc.toNat + 1 else s.pc.toNat))

/-- R235, and R94's treatment of an Unimplemented word as a whole step: SYS, or an undefined word of group 8, E or F.
Under NOOP nothing changes but PC, the timers and the status; under FAULT the step raises UNDEFINED_INSTRUCTION. -/
def Obligations.UnimplementedWords : Prop :=
  ∀ (s : State) (w : Word), Fetches s w →
    ((∃ nnn, decodeWord w = .ok (.sys nnn)) ∨ (∃ u, decodeWord w = .error u)) →
    (s.cfg.undefinedWords = .noop →
      ∃ t, step s = .next t ∧ t.status = .unimplemented ∧ t.rs = .running ∧ RegsKeptBut [] s t ∧ MemKept s t ∧
        t.pc = (if fieldG w = 0x8 then s.pc + 2 else s.pc) ∧ t.i = s.i ∧ t.sp = s.sp ∧ t.aw = s.aw ∧
        SystemKept s t ∧ t.dt.toNat = ticked s.dt ∧ t.st.toNat = ticked s.st ∧ t.draws = s.draws) ∧
    (s.cfg.undefinedWords = .fault → step s = .next (faultedState s .undefinedInstruction w.toNat))

/-! The arithmetic and logic of 41_alu.md. -/

/-- R111. -/
def Obligations.LdImmLoads : Prop :=
  ∀ (s : State) (x : Nibble) (nn : Byte), decodeWord (wordXNN 0x6000 x nn) = .ok (.ldImm x nn) ∧
    ∃ t, exec (.ldImm x nn) s = .next t ∧ t.reg x = nn ∧ t.pc = s.pc + 2 ∧ OnlyRegs [x] s t

/-- R112. -/
def Obligations.AddImmAdds : Prop :=
  ∀ (s : State) (x : Nibble) (nn : Byte), decodeWord (wordXNN 0x7000 x nn) = .ok (.addImm x nn) ∧
    ∃ t, exec (.addImm x nn) s = .next t ∧ (t.reg x).toNat = ((s.reg x).toNat + nn.toNat) % 256 ∧
      t.pc = s.pc + 2 ∧ OnlyRegs [x] s t

/-- R113. -/
def Obligations.LdRegMoves : Prop :=
  ∀ (s : State) (x y : Nibble), decodeWord (wordXY 0x8000 x y) = .ok (.ldReg x y) ∧
    ∃ t, exec (.ldReg x y) s = .next t ∧ t.reg x = s.reg y ∧ t.pc = s.pc + 2 ∧ OnlyRegs [x] s t

/-- R114. -/
def Obligations.OrRegOrs : Prop :=
  ∀ (s : State) (x y : Nibble), decodeWord (wordXY 0x8001 x y) = .ok (.orReg x y) ∧
    ∃ t, exec (.orReg x y) s = .next t ∧ t.pc = s.pc + 2 ∧ OnlyRegs [x] s t ∧
      ∀ k < 8, (t.reg x).getLsbD k = ((s.reg x).getLsbD k || (s.reg y).getLsbD k)

/-- R115. -/
def Obligations.AndRegAnds : Prop :=
  ∀ (s : State) (x y : Nibble), decodeWord (wordXY 0x8002 x y) = .ok (.andReg x y) ∧
    ∃ t, exec (.andReg x y) s = .next t ∧ t.pc = s.pc + 2 ∧ OnlyRegs [x] s t ∧
      ∀ k < 8, (t.reg x).getLsbD k = ((s.reg x).getLsbD k && (s.reg y).getLsbD k)

/-- R116. -/
def Obligations.XorRegXors : Prop :=
  ∀ (s : State) (x y : Nibble), decodeWord (wordXY 0x8003 x y) = .ok (.xorReg x y) ∧
    ∃ t, exec (.xorReg x y) s = .next t ∧ t.pc = s.pc + 2 ∧ OnlyRegs [x] s t ∧
      ∀ k < 8, (t.reg x).getLsbD k = ((s.reg x).getLsbD k ^^ (s.reg y).getLsbD k)

/-- R117: with X = F the flag is what VF holds. -/
def Obligations.AddRegAddsWithCarry : Prop :=
  ∀ (s : State) (x y : Nibble), decodeWord (wordXY 0x8004 x y) = .ok (.addReg x y) ∧
    ∃ t, exec (.addReg x y) s = .next t ∧ t.pc = s.pc + 2 ∧ OnlyRegs [x, 0xF] s t ∧
      (x ≠ 0xF → (t.reg x).toNat = ((s.reg x).toNat + (s.reg y).toNat) % 256) ∧
      t.reg 0xF = if (s.reg x).toNat + (s.reg y).toNat > 255 then 1 else 0

/-- R118. -/
def Obligations.SubRegSubtracts : Prop :=
  ∀ (s : State) (x y : Nibble), decodeWord (wordXY 0x8005 x y) = .ok (.subReg x y) ∧
    ∃ t, exec (.subReg x y) s = .next t ∧ t.pc = s.pc + 2 ∧ OnlyRegs [x, 0xF] s t ∧
      (x ≠ 0xF → (t.reg x).toNat = ((s.reg x).toNat + 256 - (s.reg y).toNat) % 256) ∧
      t.reg 0xF = if (s.reg x).toNat ≥ (s.reg y).toNat then 1 else 0

/-- R119. -/
def Obligations.ShrShiftsRight : Prop :=
  ∀ (s : State) (x y : Nibble), decodeWord (wordXY 0x8006 x y) = .ok (.shr x y) ∧
    ∃ t, exec (.shr x y) s = .next t ∧ t.pc = s.pc + 2 ∧ OnlyRegs [x, 0xF] s t ∧
      (x ≠ 0xF → (t.reg x).toNat = (shiftOperand s x y).toNat / 2) ∧
      (t.reg 0xF).toNat = (shiftOperand s x y).toNat % 2

/-- R120. -/
def Obligations.SubnSubtractsReversed : Prop :=
  ∀ (s : State) (x y : Nibble), decodeWord (wordXY 0x8007 x y) = .ok (.subn x y) ∧
    ∃ t, exec (.subn x y) s = .next t ∧ t.pc = s.pc + 2 ∧ OnlyRegs [x, 0xF] s t ∧
      (x ≠ 0xF → (t.reg x).toNat = ((s.reg y).toNat + 256 - (s.reg x).toNat) % 256) ∧
      t.reg 0xF = if (s.reg y).toNat ≥ (s.reg x).toNat then 1 else 0

/-- R121. -/
def Obligations.ShlShiftsLeft : Prop :=
  ∀ (s : State) (x y : Nibble), decodeWord (wordXY 0x800E x y) = .ok (.shl x y) ∧
    ∃ t, exec (.shl x y) s = .next t ∧ t.pc = s.pc + 2 ∧ OnlyRegs [x, 0xF] s t ∧
      (x ≠ 0xF → (t.reg x).toNat = (shiftOperand s x y).toNat * 2 % 256) ∧
      t.reg 0xF = (if 128 ≤ (shiftOperand s x y).toNat
        then (if s.cfg.shlFlag = .raw then 0x80 else 1) else 0)

/-- R123: some byte, of which nothing is known, masked by NN; the count of draws is the model's own and may change. -/
def Obligations.RndMasksAByte : Prop :=
  ∀ (s : State) (x : Nibble) (nn : Byte), decodeWord (wordXNN 0xC000 x nn) = .ok (.rnd x nn) ∧
    ∃ t, exec (.rnd x nn) s = .next t ∧ (∃ rand8 : Byte, t.reg x = rand8 &&& nn) ∧ t.pc = s.pc + 2 ∧
      RegsKeptBut [x] s t ∧ MemKept s t ∧ t.i = s.i ∧ t.sp = s.sp ∧ t.aw = s.aw ∧ TimersKept s t ∧
      SystemKept s t ∧ t.status = s.status

/-- The model's choice (assumption 3), no rule of the spec: the byte is the free value of the count of draws, RND uses
it up, and no other instruction does. -/
def Obligations.EachRndDrawsAfresh : Prop :=
  (∀ (s t : State) (x : Nibble) (nn : Byte), exec (.rnd x nn) s = .next t →
    t.reg x = Config.rand8 s.draws &&& nn ∧ t.draws = s.draws + 1) ∧
  (∀ (i : Instr) (s t : State), (∀ x nn, i ≠ .rnd x nn) → exec i s = .next t → t.draws = s.draws)

/-! The control flow of 42_control_flow.md. -/

/-- R141. -/
def Obligations.ClsClears : Prop :=
  decodeWord 0x00E0 = .ok .cls ∧
  ∀ s : State, Memory.wf s.mem →
    ∃ t, exec .cls s = .next t ∧ (∀ k < 256, t.readByte (s.cfg.displayBase + k) = 0) ∧ t.pc = s.pc + 2 ∧
      MemKeptOutside s.cfg.displayBase 256 s t ∧ RegsKeptBut [] s t ∧ t.i = s.i ∧ t.sp = s.sp ∧ t.aw = s.aw ∧
      RestKept s t

/-- R142. -/
def Obligations.RetReturns : Prop :=
  decodeWord 0x00EE = .ok .ret ∧
  ∀ s : State,
    if s.sp.toNat + 2 > s.cfg.stackTop then exec .ret s = .next (faultedState s .stackUnderflow s.sp.toNat)
    else ∃ t, exec .ret s = .next t ∧
      t.pc.toNat = (s.readByte s.sp.toNat).toNat * 256 + (s.readByte (s.sp.toNat + 1)).toNat ∧
      t.sp.toNat = s.sp.toNat + 2 ∧ RegsKeptBut [] s t ∧ MemKept s t ∧ t.i = s.i ∧ t.aw = s.aw ∧ RestKept s t

/-- R143. -/
def Obligations.SysIsUnimplemented : Prop :=
  ∀ (s : State) (w : Word), w.toNat ≤ 0x0FFF → w ≠ 0x00E0 → w ≠ 0x00EE →
    ∃ nnn, decodeWord w = .ok (.sys nnn) ∧
    (s.cfg.undefinedWords = .noop → ∃ t, exec (.sys nnn) s = .next t ∧ t.status = .unimplemented ∧
      t.pc = s.pc ∧ RegsKeptBut [] s t ∧ MemKept s t ∧ t.i = s.i ∧ t.sp = s.sp ∧ t.aw = s.aw ∧ TimersKept s t ∧
      SystemKept s t ∧ t.draws = s.draws) ∧
    (s.cfg.undefinedWords = .fault →
      exec (.sys nnn) s = .next (faultedState s .undefinedInstruction w.toNat))

/-- R144. -/
def Obligations.JpJumps : Prop :=
  ∀ (s : State) (nnn : Addr12), decodeWord (wordNNN 0x1000 nnn) = .ok (.jp nnn) ∧
    ∃ t, exec (.jp nnn) s = .next t ∧ t.pc.toNat = nnn.toNat ∧
      t.status = (if nnn.toNat = s.pc.toNat then .selfLoop else s.status) ∧
      RegsKeptBut [] s t ∧ MemKept s t ∧ t.i = s.i ∧ t.sp = s.sp ∧ t.aw = s.aw ∧ TimersKept s t ∧ SystemKept s t ∧
      t.draws = s.draws

/-- R145: a jump to itself signals SELF_LOOP and otherwise executes normally, and nothing else signals it. -/
def Obligations.SelfLoopIsAdvisory : Prop :=
  (∀ (s : State) (nnn : Addr12), Fetches s (wordNNN 0x1000 nnn) → nnn.toNat = s.pc.toNat →
    ∃ t, step s = .next t ∧ t.status = .selfLoop ∧ t.rs = .running ∧ t.pc = s.pc ∧ t.dt.toNat = ticked s.dt ∧
      t.st.toNat = ticked s.st ∧ RegsKeptBut [] s t ∧ MemKept s t) ∧
  (∀ (s t : State), step s = .next t → t.status = .selfLoop →
    ∃ nnn : Addr12, Fetches s (wordNNN 0x1000 nnn) ∧ nnn.toNat = s.pc.toNat)

/-- R146, in a state that R26 allows. -/
def Obligations.CallCalls : Prop :=
  ∀ (s : State) (nnn : Addr12), Memory.wf s.mem → s.sp.toNat ≤ s.cfg.stackTop →
    decodeWord (wordNNN 0x2000 nnn) = .ok (.call nnn) ∧
    if s.sp.toNat < s.cfg.stackBottom + 2 then
      exec (.call nnn) s = .next (faultedState s .stackOverflow s.sp.toNat)
    else ∃ t, exec (.call nnn) s = .next t ∧ t.sp.toNat = s.sp.toNat - 2 ∧
      (t.readByte (s.sp.toNat - 2)).toNat * 256 + (t.readByte (s.sp.toNat - 1)).toNat = (s.pc + 2).toNat ∧
      t.pc.toNat = nnn.toNat ∧ MemKeptOutside (s.sp.toNat - 2) 2 s t ∧ RegsKeptBut [] s t ∧ t.i = s.i ∧
      t.aw = s.aw ∧ RestKept s t

/-- The property of 42_control_flow.md R146: a call followed at once by a return comes back behind the call with SP
restored. -/
def Obligations.CallThenReturn : Prop :=
  ∀ (s t : State) (nnn : Addr12), s.Inv → s.rs = .running → exec (.call nnn) s = .next t → t.rs = .running →
    ∃ u, exec .ret t = .next u ∧ u.pc = s.pc + 2 ∧ u.sp = s.sp ∧ u.rs = .running

/-- R147. -/
def Obligations.SeImmSkips : Prop :=
  ∀ (s : State) (x : Nibble) (nn : Byte), decodeWord (wordXNN 0x3000 x nn) = .ok (.seImm x nn) ∧
    ∃ t, exec (.seImm x nn) s = .next t ∧ t.pc = s.pc + (if (s.reg x).toNat = nn.toNat then 4 else 2) ∧
      OnlyRegs [] s t

/-- R148. -/
def Obligations.SneImmSkips : Prop :=
  ∀ (s : State) (x : Nibble) (nn : Byte), decodeWord (wordXNN 0x4000 x nn) = .ok (.sneImm x nn) ∧
    ∃ t, exec (.sneImm x nn) s = .next t ∧ t.pc = s.pc + (if (s.reg x).toNat ≠ nn.toNat then 4 else 2) ∧
      OnlyRegs [] s t

/-- R149: for every N. -/
def Obligations.SeRegSkips : Prop :=
  ∀ (s : State) (x y n : Nibble), decodeWord (wordXYN 0x5000 x y n) = .ok (.seReg x y n) ∧
    ∃ t, exec (.seReg x y n) s = .next t ∧ t.pc = s.pc + (if (s.reg x).toNat = (s.reg y).toNat then 4 else 2) ∧
      OnlyRegs [] s t

/-- R150: for every N. -/
def Obligations.SneRegSkips : Prop :=
  ∀ (s : State) (x y n : Nibble), decodeWord (wordXYN 0x9000 x y n) = .ok (.sneReg x y n) ∧
    ∃ t, exec (.sneReg x y n) s = .next t ∧ t.pc = s.pc + (if (s.reg x).toNat ≠ (s.reg y).toNat then 4 else 2) ∧
      OnlyRegs [] s t

/-- R151. -/
def Obligations.JpV0Jumps : Prop :=
  ∀ (s : State) (nnn : Addr12), decodeWord (wordNNN 0xB000 nnn) = .ok (.jpV0 nnn) ∧
    ∃ t, exec (.jpV0 nnn) s = .next t ∧ t.pc.toNat = nnn.toNat + (s.reg 0x0).toNat ∧ OnlyRegs [] s t

/-! The display of 43_display.md. -/

/-- R173, with R174's rows and R175's collisions: the three checks in their order, each with the address it records, then
the draw, pixel by pixel. `row r` is the byte at I + r as the first r rows left it (R176). -/
def Obligations.DrwDraws : Prop :=
  ∀ (s : State) (x y n : Nibble), Memory.wf s.mem → decodeWord (wordXYN 0xD000 x y n) = .ok (.drw x y n) ∧
    (DrwReadFault s n.toNat → exec (.drw x y n) s = .next (faultedState s .readOutOfRange
      (if 0xFFF < s.i.toNat then s.i.toNat else 0x1000))) ∧
    (¬ DrwReadFault s n.toNat → DrwRowFault s (s.reg y).toNat n.toNat →
      exec (.drw x y n) s = .next (faultedState s .spriteRowOutOfRange (max (s.reg y).toNat 32))) ∧
    (¬ DrwReadFault s n.toNat → ∀ r c, DrwWriteFault s (s.reg x).toNat (s.reg y).toNat n.toNat r c →
      exec (.drw x y n) s = .next (faultedState s .writeOutOfRange
        (drwTarget s (s.reg x).toNat (s.reg y).toNat r c))) ∧
    (¬ DrwReadFault s n.toNat → ¬ DrwRowFault s (s.reg y).toNat n.toNat →
      (∀ r c, ¬ DrwWriteFault s (s.reg x).toNat (s.reg y).toNat n.toNat r c) →
      ∃ t, ∃ row : Nat → Byte, exec (.drw x y n) s = .next t ∧
        (∀ r < n.toNat, ∃ u, exec (.drw x y (BitVec.ofNat 4 r)) s = .next u ∧
          row r = u.readByte (s.i.toNat + r)) ∧
        (∀ r z px, r < n.toNat → Lands s.cfg (s.reg y).toNat r z → px < 64 →
          pixel t px z = (pixel s px z ^^ (decide ((s.reg x).toNat ≤ px ∧ px < (s.reg x).toNat + 8) &&
            (row r).getLsbD (7 - (px - (s.reg x).toNat))))) ∧
        (∀ z px, (∀ r < n.toNat, ¬ Lands s.cfg (s.reg y).toNat r z) → px < 64 → pixel t px z = pixel s px z) ∧
        (∀ a, a < s.cfg.displayBase → t.readByte a = s.readByte a) ∧
        (Collides s (s.reg x).toNat (s.reg y).toNat n.toNat row → t.reg 0xF = 1) ∧
        (¬ Collides s (s.reg x).toNat (s.reg y).toNat n.toNat row → t.reg 0xF = 0) ∧
        t.pc = s.pc + 2 ∧ RegsKeptBut [0xF] s t ∧ t.i = s.i ∧ t.sp = s.sp ∧ t.aw = s.aw ∧ RestKept s t)

/-- R177, an inference the spec marks as its own ("[derived: from rules R173 and R176]"): drawing the same sprite at the
same place twice restores memory, and the second draw reports VF = 1 exactly where the first lit a clear pixel. X and Y
are not F, so that the place is the same; the sprite's bytes are none of the bytes the draw changes. -/
def Obligations.DrawingTwiceRestores : Prop :=
  ∀ (s t : State) (x y n : Nibble), Memory.wf s.mem → s.rs = .running → x ≠ 0xF → y ≠ 0xF →
    exec (.drw x y n) s = .next t → t.rs = .running →
    (∀ r < n.toNat, ¬ mayWrite (.drw x y n) s (s.i.toNat + r)) →
    ∃ u, exec (.drw x y n) t = .next u ∧ u.rs = .running ∧ (∀ a, u.readByte a = s.readByte a) ∧
      ((∃ px z, px < 64 ∧ pixel s px z = false ∧ pixel t px z = true) → u.reg 0xF = 1) ∧
      ((∀ px z, px < 64 → pixel s px z = false → pixel t px z = false) → u.reg 0xF = 0)

/-! The index register and memory transfers of 44_timer_key_index.md. -/

/-- R190. -/
def Obligations.LdILoads : Prop :=
  ∀ (s : State) (nnn : Addr12), decodeWord (wordNNN 0xA000 nnn) = .ok (.ldI nnn) ∧
    ∃ t, exec (.ldI nnn) s = .next t ∧ t.i.toNat = nnn.toNat ∧ t.pc = s.pc + 2 ∧ RegsKeptBut [] s t ∧ MemKept s t ∧
      t.sp = s.sp ∧ t.aw = s.aw ∧ RestKept s t

/-- R191. -/
def Obligations.AddIAdds : Prop :=
  ∀ (s : State) (x : Nibble), decodeWord (wordX 0xF01E x) = .ok (.addI x) ∧
    ∃ t, exec (.addI x) s = .next t ∧ t.i.toNat = (s.i.toNat + (s.reg x).toNat) % 2 ^ 16 ∧ t.pc = s.pc + 2 ∧
      RegsKeptBut [] s t ∧ MemKept s t ∧ t.sp = s.sp ∧ t.aw = s.aw ∧ RestKept s t

/-- R192. -/
def Obligations.LdFPointsAtGlyph : Prop :=
  ∀ (s : State) (x : Nibble), decodeWord (wordX 0xF029 x) = .ok (.ldF x) ∧
    ∃ t, exec (.ldF x) s = .next t ∧ t.i.toNat = (s.reg x).toNat * 5 ∧ t.pc = s.pc + 2 ∧
      RegsKeptBut [] s t ∧ MemKept s t ∧ t.sp = s.sp ∧ t.aw = s.aw ∧ RestKept s t

/-- R193. -/
def Obligations.LdBStoresDigits : Prop :=
  ∀ (s : State) (x : Nibble), Memory.wf s.mem → decodeWord (wordX 0xF033 x) = .ok (.ldB x) ∧
    if s.i.toNat + 2 > 0xFFF then
      exec (.ldB x) s = .next (faultedState s .writeOutOfRange (if s.i.toNat > 0xFFF then s.i.toNat else 0x1000))
    else if s.cfg.fontWrite = .fault ∧ s.i.toNat < 0x050 then
      exec (.ldB x) s = .next (faultedState s .fontWrite s.i.toNat)
    else ∃ t, exec (.ldB x) s = .next t ∧
      StoredAs s t s.i.toNat (BitVec.ofNat 8 ((s.reg x).toNat / 100)) ∧
      StoredAs s t (s.i.toNat + 1) (BitVec.ofNat 8 ((s.reg x).toNat / 10 % 10)) ∧
      StoredAs s t (s.i.toNat + 2) (BitVec.ofNat 8 ((s.reg x).toNat % 10)) ∧
      t.pc = s.pc + 2 ∧ MemKeptOutside s.i.toNat 3 s t ∧ RegsKeptBut [] s t ∧ t.i = s.i ∧ t.sp = s.sp ∧
      t.aw = s.aw ∧ RestKept s t

/-- R194. -/
def Obligations.LdMemVxDumps : Prop :=
  ∀ (s : State) (x : Nibble), Memory.wf s.mem → decodeWord (wordX 0xF055 x) = .ok (.ldMemVx x) ∧
    if s.i.toNat + x.toNat > 0xFFF then
      exec (.ldMemVx x) s = .next (faultedState s .writeOutOfRange (if s.i.toNat > 0xFFF then s.i.toNat else 0x1000))
    else if s.cfg.fontWrite = .fault ∧ s.i.toNat < 0x050 then
      exec (.ldMemVx x) s = .next (faultedState s .fontWrite s.i.toNat)
    else ∃ t, exec (.ldMemVx x) s = .next t ∧
      (∀ k : Nibble, k.toNat ≤ x.toNat → StoredAs s t (s.i.toNat + k.toNat) (s.reg k)) ∧
      t.i.toNat = (s.i.toNat + x.toNat + 1) % 2 ^ 16 ∧ t.pc = s.pc + 2 ∧
      MemKeptOutside s.i.toNat (x.toNat + 1) s t ∧ RegsKeptBut [] s t ∧ t.sp = s.sp ∧ t.aw = s.aw ∧ RestKept s t

/-- R195. -/
def Obligations.LdVxMemLoads : Prop :=
  ∀ (s : State) (x : Nibble), decodeWord (wordX 0xF065 x) = .ok (.ldVxMem x) ∧
    if s.i.toNat + x.toNat > 0xFFF then
      exec (.ldVxMem x) s = .next (faultedState s .readOutOfRange (if s.i.toNat > 0xFFF then s.i.toNat else 0x1000))
    else ∃ t, exec (.ldVxMem x) s = .next t ∧
      (∀ k : Nibble, t.reg k = if k.toNat ≤ x.toNat then s.readByte (s.i.toNat + k.toNat) else s.reg k) ∧
      t.i.toNat = (s.i.toNat + x.toNat + 1) % 2 ^ 16 ∧ t.pc = s.pc + 2 ∧ MemKept s t ∧ t.sp = s.sp ∧ t.aw = s.aw ∧
      RestKept s t

/-! The timers and keys of 44_timer_key_index.md. -/

/-- R196, the instruction and its step under both phases. -/
def Obligations.LdVxDtReadsTimer : Prop :=
  ∀ (s : State) (x : Nibble), decodeWord (wordX 0xF007 x) = .ok (.ldVxDt x) ∧
    (∃ t, exec (.ldVxDt x) s = .next t ∧ t.reg x = s.dt ∧ t.pc = s.pc + 2 ∧ OnlyRegs [x] s t) ∧
    (Fetches s (wordX 0xF007 x) → ∃ u, step s = .next u ∧ u.rs = .running ∧ u.dt.toNat = ticked s.dt ∧
      (u.reg x).toNat = if s.cfg.timerPhase = .afterExecute then s.dt.toNat else ticked s.dt)

/-- R197, the instruction and its step under both phases. -/
def Obligations.LdDtVxSetsTimer : Prop :=
  ∀ (s : State) (x : Nibble), decodeWord (wordX 0xF015 x) = .ok (.ldDtVx x) ∧
    (∃ t, exec (.ldDtVx x) s = .next t ∧ t.dt = s.reg x ∧ t.pc = s.pc + 2 ∧ RegsKeptBut [] s t ∧ MemKept s t ∧
      t.i = s.i ∧ t.sp = s.sp ∧ t.aw = s.aw ∧ t.st = s.st ∧ SystemKept s t ∧ t.status = s.status ∧
      t.draws = s.draws) ∧
    (Fetches s (wordX 0xF015 x) → ∃ u, step s = .next u ∧ u.rs = .running ∧
      u.dt.toNat = if s.cfg.timerPhase = .afterExecute then ticked (s.reg x) else (s.reg x).toNat)

/-- R198, the instruction and its step under both phases. -/
def Obligations.LdStVxSetsTimer : Prop :=
  ∀ (s : State) (x : Nibble), decodeWord (wordX 0xF018 x) = .ok (.ldStVx x) ∧
    (∃ t, exec (.ldStVx x) s = .next t ∧ t.st = s.reg x ∧ t.pc = s.pc + 2 ∧ RegsKeptBut [] s t ∧ MemKept s t ∧
      t.i = s.i ∧ t.sp = s.sp ∧ t.aw = s.aw ∧ t.dt = s.dt ∧ SystemKept s t ∧ t.status = s.status ∧
      t.draws = s.draws) ∧
    (Fetches s (wordX 0xF018 x) → ∃ u, step s = .next u ∧ u.rs = .running ∧
      u.st.toNat = if s.cfg.timerPhase = .afterExecute then ticked (s.reg x) else (s.reg x).toNat)

/-- R199: each timer of every step. -/
def Obligations.TimersTickOncePerStep : Prop :=
  ∀ (s t : State) (w : Word), Fetches s w → step s = .next t →
    (t.rs = .faulted → TimersKept s t) ∧
    (t.rs = .running → (∀ x, decodeWord w ≠ .ok (.ldDtVx x)) → t.dt.toNat = ticked s.dt) ∧
    (t.rs = .running → (∀ x, decodeWord w ≠ .ok (.ldStVx x)) → t.st.toNat = ticked s.st)

/-- R201 with R203's key index. -/
def Obligations.SkpSkips : Prop :=
  ∀ (s : State) (x : Nibble), decodeWord (wordX 0xE09E x) = .ok (.skp x) ∧
    (BadKeyIndex s.cfg (s.reg x) →
      exec (.skp x) s = .next (faultedState s .keyIndexOutOfRange (s.reg x).toNat)) ∧
    (¬ BadKeyIndex s.cfg (s.reg x) → ∃ k, IsKeyIndex s.cfg (s.reg x) k ∧
      ∃ t, exec (.skp x) s = .next t ∧ t.pc = s.pc + (if s.key k = true then 4 else 2) ∧ OnlyRegs [] s t)

/-- R202 with R203's key index. -/
def Obligations.SknpSkips : Prop :=
  ∀ (s : State) (x : Nibble), decodeWord (wordX 0xE0A1 x) = .ok (.sknp x) ∧
    (BadKeyIndex s.cfg (s.reg x) →
      exec (.sknp x) s = .next (faultedState s .keyIndexOutOfRange (s.reg x).toNat)) ∧
    (¬ BadKeyIndex s.cfg (s.reg x) → ∃ k, IsKeyIndex s.cfg (s.reg x) k ∧
      ∃ t, exec (.sknp x) s = .next t ∧ t.pc = s.pc + (if s.key k = true then 2 else 4) ∧ OnlyRegs [] s t)

/-- R204: the first entry, a later entry with no key, a later entry with a key. -/
def Obligations.LdVxKWaits : Prop :=
  ∀ (s : State) (x : Nibble), decodeWord (wordX 0xF00A x) = .ok (.ldVxK x) ∧
    (s.aw = false → ∃ t, exec (.ldVxK x) s = .next t ∧ t.aw = true ∧ t.status = .waiting ∧ t.pc = s.pc ∧
      RegsKeptBut [] s t ∧ MemKept s t ∧ t.i = s.i ∧ t.sp = s.sp ∧ TimersKept s t ∧ SystemKept s t ∧
      t.draws = s.draws) ∧
    (s.aw = true → (∀ k, s.key k = false) → ∃ t, exec (.ldVxK x) s = .next t ∧ t.aw = true ∧
      t.status = .waiting ∧ t.pc = s.pc ∧ RegsKeptBut [] s t ∧ MemKept s t ∧ t.i = s.i ∧ t.sp = s.sp ∧
      TimersKept s t ∧ SystemKept s t ∧ t.draws = s.draws) ∧
    (s.aw = true → ∀ k, s.key k = true → (∀ j : Nibble, j.toNat < k.toNat → s.key j = false) →
      ∃ t, exec (.ldVxK x) s = .next t ∧ (t.reg x).toNat = k.toNat ∧ t.aw = false ∧ t.pc = s.pc + 2 ∧
        RegsKeptBut [x] s t ∧ MemKept s t ∧ t.i = s.i ∧ t.sp = s.sp ∧ RestKept s t)

/-! The whole machine. -/

/-- R231: Fatal is precise: the state before the step, with RS, FR and the status latched. -/
def Obligations.FatalIsPrecise : Prop :=
  ∀ s t : State, s.rs = .running → step s = .next t → t.rs = .faulted →
    ∃ cause addr, t = faultedState s cause addr

/-- R233: a faulted machine does nothing and reports FATAL; reset, and no other event, returns it to RUNNING. -/
def Obligations.FaultedMachineDoesNothing : Prop :=
  ∀ s : State, s.rs = .faulted → step s = .next { s with status := .fatal } ∧
    (hostReset s).rs = .running ∧ (hostReset s).fr = none ∧
    ∀ e t, hostStep e s = .next t → t.rs = .running → e = .reset

/-- R232's last sentence: under the default parameters only causes 1 to 7 occur. -/
def Obligations.DefaultCausesAreOneToSeven : Prop :=
  ∀ s t : State, s.cfg = defaultConfig → s.rs = .running → step s = .next t → t.rs = .faulted →
    ∃ r, t.fr = some r ∧ 1 ≤ causeCode r.cause ∧ causeCode r.cause ≤ 7

/-- The frame of the registers (R22): an instruction writes no register but those of the table. -/
def Obligations.RegisterWritesAreTheTable : Prop :=
  ∀ (i : Instr) (s t : State), exec i s = .next t → RegsKeptBut (writesRegs i) s t

/-- R22's reads: a register an instruction neither reads nor writes has no influence on it. -/
def Obligations.UnreadRegistersDoNotMatter : Prop :=
  ∀ (i : Instr) (s t : State) (r : Nibble) (b : Byte), r ∉ readsRegs s.cfg i → r ∉ writesRegs i →
    exec i s = .next t → exec i (s.setReg r b) = .next (t.setReg r b)

/-- The frame of memory (R51): an instruction writes no byte but those of the table. -/
def Obligations.MemoryWritesAreTheTable : Prop :=
  ∀ (i : Instr) (s t : State), s.Inv → exec i s = .next t →
    ∀ a, ¬ mayWrite i s a → t.readByte a = s.readByte a

/-- The frame of the special registers (R25 to R30): who writes I, SP, DT, ST and AW; that no instruction writes KEY or the
configuration; that RS and FR change only by a Fatal. -/
def Obligations.SpecialRegisterWriters : Prop :=
  ∀ (i : Instr) (s t : State), exec i s = .next t →
    (t.i ≠ s.i → (∃ nnn, i = .ldI nnn) ∨ (∃ x, i = .addI x ∨ i = .ldF x ∨ i = .ldMemVx x ∨ i = .ldVxMem x)) ∧
    (t.sp ≠ s.sp → i = .ret ∨ ∃ nnn, i = .call nnn) ∧
    (t.dt ≠ s.dt → ∃ x, i = .ldDtVx x) ∧ (t.st ≠ s.st → ∃ x, i = .ldStVx x) ∧
    (t.aw ≠ s.aw → ∃ x, i = .ldVxK x) ∧ t.keys = s.keys ∧ t.cfg = s.cfg ∧
    ((t.rs = s.rs ∧ t.fr = s.fr) ∨ ∃ cause addr, t = faultedState s cause addr)

/-- R36, R60: unless P_FONT_WRITE is STORE, no step changes the glyph table. -/
def Obligations.GlyphTableIsNeverMutated : Prop :=
  ∀ s t : State, s.Inv → s.cfg.fontWrite ≠ .store → step s = .next t →
    ∀ a, a < 0x050 → t.readByte a = s.readByte a

/-- The invariant holds at reset, under every configuration. -/
def Obligations.ResetMeetsInvariant : Prop := State.reset.Inv ∧ ∀ c : Config, (resetWith c).Inv

/-- Every step keeps the invariant: memory canonical and inside the space (R50, R55), SP in its region (R26), the fault
record where a fault is (R30). -/
def Obligations.StepKeepsInvariant : Prop := ∀ s t : State, s.Inv → step s = .next t → t.Inv

/-- Every event of the machine and its host keeps the invariant (R34). -/
def Obligations.HostEventKeepsInvariant : Prop :=
  ∀ (e : HostEvent) (s t : State), s.Inv → hostStep e s = .next t → t.Inv

/-- A machine that meets the invariant always answers a next state: the model stops nowhere (R82, R230). -/
def Obligations.EveryStepAnswers : Prop := ∀ s : State, s.Inv → ∃ t, step s = .next t
end

