-- ==== Sys2Proof/Laws/Decode.lean ====
section
/-! SUPPORT. The fields of a packed word and the word packed from its fields (30_encoding.md R85, R86), and the two
bytes of a word (20_memory.md R56). -/

namespace Sys2Proof.Laws

@[simp] theorem fieldG_packNNN (g : Nibble) (nnn : Addr12) : fieldG (packNNN g nnn) = g := by
  ext j hj
  simp only [fieldG, packNNN]
  interval_cases j <;> simp

@[simp] theorem fieldNNN_packNNN (g : Nibble) (nnn : Addr12) : fieldNNN (packNNN g nnn) = nnn := by
  ext j hj
  simp only [fieldNNN, packNNN]
  interval_cases j <;> simp

@[simp] theorem fieldG_packXNN (g x : Nibble) (nn : Byte) : fieldG (packXNN g x nn) = g := by
  ext j hj
  simp only [fieldG, packXNN]
  interval_cases j <;> simp

@[simp] theorem fieldX_packXNN (g x : Nibble) (nn : Byte) : fieldX (packXNN g x nn) = x := by
  ext j hj
  simp only [fieldX, packXNN]
  interval_cases j <;> simp

@[simp] theorem fieldNN_packXNN (g x : Nibble) (nn : Byte) : fieldNN (packXNN g x nn) = nn := by
  ext j hj
  simp only [fieldNN, packXNN]
  interval_cases j <;> simp

@[simp] theorem fieldG_packXYN (g x y n : Nibble) : fieldG (packXYN g x y n) = g := by
  ext j hj
  simp only [fieldG, packXYN]
  interval_cases j <;> simp

@[simp] theorem fieldX_packXYN (g x y n : Nibble) : fieldX (packXYN g x y n) = x := by
  ext j hj
  simp only [fieldX, packXYN]
  interval_cases j <;> simp

@[simp] theorem fieldY_packXYN (g x y n : Nibble) : fieldY (packXYN g x y n) = y := by
  ext j hj
  simp only [fieldY, packXYN]
  interval_cases j <;> simp

@[simp] theorem fieldN_packXYN (g x y n : Nibble) : fieldN (packXYN g x y n) = n := by
  ext j hj
  simp only [fieldN, packXYN]
  interval_cases j <;> simp

theorem packNNN_fields (w : Word) : packNNN (fieldG w) (fieldNNN w) = w := by
  ext j hj
  simp only [fieldG, fieldNNN, packNNN]
  interval_cases j <;> simp

theorem packXNN_fields (w : Word) : packXNN (fieldG w) (fieldX w) (fieldNN w) = w := by
  ext j hj
  simp only [fieldG, fieldX, fieldNN, packXNN]
  interval_cases j <;> simp

theorem packXYN_fields (w : Word) : packXYN (fieldG w) (fieldX w) (fieldY w) (fieldN w) = w := by
  ext j hj
  simp only [fieldG, fieldX, fieldY, fieldN, packXYN]
  interval_cases j <;> simp

@[simp] theorem highByte_wordOfBytes (hi lo : Byte) : highByte (wordOfBytes hi lo) = hi := by
  ext j hj
  simp only [highByte, wordOfBytes]
  interval_cases j <;> simp

@[simp] theorem lowByte_wordOfBytes (hi lo : Byte) : lowByte (wordOfBytes hi lo) = lo := by
  ext j hj
  simp only [lowByte, wordOfBytes]
  interval_cases j <;> simp

@[simp] theorem wordOfBytes_bytes (w : Word) : wordOfBytes (highByte w) (lowByte w) = w := by
  ext j hj
  simp only [highByte, lowByte, wordOfBytes]
  interval_cases j <;> simp

/-- R10, R56: the value of a word read from memory. -/
theorem wordOfBytes_toNat (hi lo : Byte) : (wordOfBytes hi lo).toNat = hi.toNat * 256 + lo.toNat := by
  have h1 := hi.isLt
  have h2 := lo.isLt
  simp only [wordOfBytes, BitVec.toNat_or, BitVec.toNat_shiftLeft, BitVec.toNat_setWidth]
  rw [Nat.mod_eq_of_lt (a := hi.toNat) (by omega), Nat.mod_eq_of_lt (a := lo.toNat) (by omega),
    Nat.mod_eq_of_lt (by rw [Nat.shiftLeft_eq]; omega), ← Nat.shiftLeft_add_eq_or_of_lt (by omega), Nat.shiftLeft_eq]

end Sys2Proof.Laws
end

