-- ==== Sys2Proof/Laws/State.lean ====
section
/-! SUPPORT. One lemma per field of State per update, so that no later proof unfolds a record update; the accessors over
the updates; the updates that act field by field have nothing else to say. -/

namespace Sys2Proof.Laws

open Sys2Proof.Machine

variable (s : State)

/-! `setReg` changes v. -/

@[simp] theorem setReg_v (x : Nibble) (b : Byte) : (s.setReg x b).v = s.v.set x.toNat b := rfl
@[simp] theorem setReg_i (x : Nibble) (b : Byte) : (s.setReg x b).i = s.i := rfl
@[simp] theorem setReg_pc (x : Nibble) (b : Byte) : (s.setReg x b).pc = s.pc := rfl
@[simp] theorem setReg_sp (x : Nibble) (b : Byte) : (s.setReg x b).sp = s.sp := rfl
@[simp] theorem setReg_dt (x : Nibble) (b : Byte) : (s.setReg x b).dt = s.dt := rfl
@[simp] theorem setReg_st (x : Nibble) (b : Byte) : (s.setReg x b).st = s.st := rfl
@[simp] theorem setReg_keys (x : Nibble) (b : Byte) : (s.setReg x b).keys = s.keys := rfl
@[simp] theorem setReg_aw (x : Nibble) (b : Byte) : (s.setReg x b).aw = s.aw := rfl
@[simp] theorem setReg_rs (x : Nibble) (b : Byte) : (s.setReg x b).rs = s.rs := rfl
@[simp] theorem setReg_fr (x : Nibble) (b : Byte) : (s.setReg x b).fr = s.fr := rfl
@[simp] theorem setReg_mem (x : Nibble) (b : Byte) : (s.setReg x b).mem = s.mem := rfl
@[simp] theorem setReg_status (x : Nibble) (b : Byte) : (s.setReg x b).status = s.status := rfl
@[simp] theorem setReg_draws (x : Nibble) (b : Byte) : (s.setReg x b).draws = s.draws := rfl
@[simp] theorem setReg_cfg (x : Nibble) (b : Byte) : (s.setReg x b).cfg = s.cfg := rfl

/-! `writeByte` changes mem. -/

@[simp] theorem writeByte_v (a : Nat) (b : Byte) : (s.writeByte a b).v = s.v := rfl
@[simp] theorem writeByte_i (a : Nat) (b : Byte) : (s.writeByte a b).i = s.i := rfl
@[simp] theorem writeByte_pc (a : Nat) (b : Byte) : (s.writeByte a b).pc = s.pc := rfl
@[simp] theorem writeByte_sp (a : Nat) (b : Byte) : (s.writeByte a b).sp = s.sp := rfl
@[simp] theorem writeByte_dt (a : Nat) (b : Byte) : (s.writeByte a b).dt = s.dt := rfl
@[simp] theorem writeByte_st (a : Nat) (b : Byte) : (s.writeByte a b).st = s.st := rfl
@[simp] theorem writeByte_keys (a : Nat) (b : Byte) : (s.writeByte a b).keys = s.keys := rfl
@[simp] theorem writeByte_aw (a : Nat) (b : Byte) : (s.writeByte a b).aw = s.aw := rfl
@[simp] theorem writeByte_rs (a : Nat) (b : Byte) : (s.writeByte a b).rs = s.rs := rfl
@[simp] theorem writeByte_fr (a : Nat) (b : Byte) : (s.writeByte a b).fr = s.fr := rfl
@[simp] theorem writeByte_mem (a : Nat) (b : Byte) : (s.writeByte a b).mem = Memory.write s.mem a b := rfl
@[simp] theorem writeByte_status (a : Nat) (b : Byte) : (s.writeByte a b).status = s.status := rfl
@[simp] theorem writeByte_draws (a : Nat) (b : Byte) : (s.writeByte a b).draws = s.draws := rfl
@[simp] theorem writeByte_cfg (a : Nat) (b : Byte) : (s.writeByte a b).cfg = s.cfg := rfl

/-! `jump` changes pc. -/

@[simp] theorem jump_v (t : Word) : (s.jump t).v = s.v := rfl
@[simp] theorem jump_i (t : Word) : (s.jump t).i = s.i := rfl
@[simp] theorem jump_pc (t : Word) : (s.jump t).pc = t := rfl
@[simp] theorem jump_sp (t : Word) : (s.jump t).sp = s.sp := rfl
@[simp] theorem jump_dt (t : Word) : (s.jump t).dt = s.dt := rfl
@[simp] theorem jump_st (t : Word) : (s.jump t).st = s.st := rfl
@[simp] theorem jump_keys (t : Word) : (s.jump t).keys = s.keys := rfl
@[simp] theorem jump_aw (t : Word) : (s.jump t).aw = s.aw := rfl
@[simp] theorem jump_rs (t : Word) : (s.jump t).rs = s.rs := rfl
@[simp] theorem jump_fr (t : Word) : (s.jump t).fr = s.fr := rfl
@[simp] theorem jump_mem (t : Word) : (s.jump t).mem = s.mem := rfl
@[simp] theorem jump_status (t : Word) : (s.jump t).status = s.status := rfl
@[simp] theorem jump_draws (t : Word) : (s.jump t).draws = s.draws := rfl
@[simp] theorem jump_cfg (t : Word) : (s.jump t).cfg = s.cfg := rfl

/-! `advance` changes pc. -/

@[simp] theorem advance_v (k : Word) : (s.advance k).v = s.v := rfl
@[simp] theorem advance_i (k : Word) : (s.advance k).i = s.i := rfl
@[simp] theorem advance_pc (k : Word) : (s.advance k).pc = s.pc + k := rfl
@[simp] theorem advance_sp (k : Word) : (s.advance k).sp = s.sp := rfl
@[simp] theorem advance_dt (k : Word) : (s.advance k).dt = s.dt := rfl
@[simp] theorem advance_st (k : Word) : (s.advance k).st = s.st := rfl
@[simp] theorem advance_keys (k : Word) : (s.advance k).keys = s.keys := rfl
@[simp] theorem advance_aw (k : Word) : (s.advance k).aw = s.aw := rfl
@[simp] theorem advance_rs (k : Word) : (s.advance k).rs = s.rs := rfl
@[simp] theorem advance_fr (k : Word) : (s.advance k).fr = s.fr := rfl
@[simp] theorem advance_mem (k : Word) : (s.advance k).mem = s.mem := rfl
@[simp] theorem advance_status (k : Word) : (s.advance k).status = s.status := rfl
@[simp] theorem advance_draws (k : Word) : (s.advance k).draws = s.draws := rfl
@[simp] theorem advance_cfg (k : Word) : (s.advance k).cfg = s.cfg := rfl

/-! `setI` changes i. -/

@[simp] theorem setI_v (a : Word) : (s.setI a).v = s.v := rfl
@[simp] theorem setI_i (a : Word) : (s.setI a).i = a := rfl
@[simp] theorem setI_pc (a : Word) : (s.setI a).pc = s.pc := rfl
@[simp] theorem setI_sp (a : Word) : (s.setI a).sp = s.sp := rfl
@[simp] theorem setI_dt (a : Word) : (s.setI a).dt = s.dt := rfl
@[simp] theorem setI_st (a : Word) : (s.setI a).st = s.st := rfl
@[simp] theorem setI_keys (a : Word) : (s.setI a).keys = s.keys := rfl
@[simp] theorem setI_aw (a : Word) : (s.setI a).aw = s.aw := rfl
@[simp] theorem setI_rs (a : Word) : (s.setI a).rs = s.rs := rfl
@[simp] theorem setI_fr (a : Word) : (s.setI a).fr = s.fr := rfl
@[simp] theorem setI_mem (a : Word) : (s.setI a).mem = s.mem := rfl
@[simp] theorem setI_status (a : Word) : (s.setI a).status = s.status := rfl
@[simp] theorem setI_draws (a : Word) : (s.setI a).draws = s.draws := rfl
@[simp] theorem setI_cfg (a : Word) : (s.setI a).cfg = s.cfg := rfl

/-! `signal` changes status. -/

@[simp] theorem signal_v (p : Status) : (s.signal p).v = s.v := rfl
@[simp] theorem signal_i (p : Status) : (s.signal p).i = s.i := rfl
@[simp] theorem signal_pc (p : Status) : (s.signal p).pc = s.pc := rfl
@[simp] theorem signal_sp (p : Status) : (s.signal p).sp = s.sp := rfl
@[simp] theorem signal_dt (p : Status) : (s.signal p).dt = s.dt := rfl
@[simp] theorem signal_st (p : Status) : (s.signal p).st = s.st := rfl
@[simp] theorem signal_keys (p : Status) : (s.signal p).keys = s.keys := rfl
@[simp] theorem signal_aw (p : Status) : (s.signal p).aw = s.aw := rfl
@[simp] theorem signal_rs (p : Status) : (s.signal p).rs = s.rs := rfl
@[simp] theorem signal_fr (p : Status) : (s.signal p).fr = s.fr := rfl
@[simp] theorem signal_mem (p : Status) : (s.signal p).mem = s.mem := rfl
@[simp] theorem signal_status (p : Status) : (s.signal p).status = p := rfl
@[simp] theorem signal_draws (p : Status) : (s.signal p).draws = s.draws := rfl
@[simp] theorem signal_cfg (p : Status) : (s.signal p).cfg = s.cfg := rfl

/-! `raiseFatal` changes rs, fr, status. -/

@[simp] theorem raiseFatal_v (c : Cause) (a : Nat) : (s.raiseFatal c a).v = s.v := rfl
@[simp] theorem raiseFatal_i (c : Cause) (a : Nat) : (s.raiseFatal c a).i = s.i := rfl
@[simp] theorem raiseFatal_pc (c : Cause) (a : Nat) : (s.raiseFatal c a).pc = s.pc := rfl
@[simp] theorem raiseFatal_sp (c : Cause) (a : Nat) : (s.raiseFatal c a).sp = s.sp := rfl
@[simp] theorem raiseFatal_dt (c : Cause) (a : Nat) : (s.raiseFatal c a).dt = s.dt := rfl
@[simp] theorem raiseFatal_st (c : Cause) (a : Nat) : (s.raiseFatal c a).st = s.st := rfl
@[simp] theorem raiseFatal_keys (c : Cause) (a : Nat) : (s.raiseFatal c a).keys = s.keys := rfl
@[simp] theorem raiseFatal_aw (c : Cause) (a : Nat) : (s.raiseFatal c a).aw = s.aw := rfl
@[simp] theorem raiseFatal_rs (c : Cause) (a : Nat) : (s.raiseFatal c a).rs = .faulted := rfl
@[simp] theorem raiseFatal_fr (c : Cause) (a : Nat) : (s.raiseFatal c a).fr = some { cause := c, pc := s.pc, addr := a } := rfl
@[simp] theorem raiseFatal_mem (c : Cause) (a : Nat) : (s.raiseFatal c a).mem = s.mem := rfl
@[simp] theorem raiseFatal_status (c : Cause) (a : Nat) : (s.raiseFatal c a).status = .fatal := rfl
@[simp] theorem raiseFatal_draws (c : Cause) (a : Nat) : (s.raiseFatal c a).draws = s.draws := rfl
@[simp] theorem raiseFatal_cfg (c : Cause) (a : Nat) : (s.raiseFatal c a).cfg = s.cfg := rfl

/-! `drawn` changes draws. -/

@[simp] theorem drawn_v : (s.drawn).v = s.v := rfl
@[simp] theorem drawn_i : (s.drawn).i = s.i := rfl
@[simp] theorem drawn_pc : (s.drawn).pc = s.pc := rfl
@[simp] theorem drawn_sp : (s.drawn).sp = s.sp := rfl
@[simp] theorem drawn_dt : (s.drawn).dt = s.dt := rfl
@[simp] theorem drawn_st : (s.drawn).st = s.st := rfl
@[simp] theorem drawn_keys : (s.drawn).keys = s.keys := rfl
@[simp] theorem drawn_aw : (s.drawn).aw = s.aw := rfl
@[simp] theorem drawn_rs : (s.drawn).rs = s.rs := rfl
@[simp] theorem drawn_fr : (s.drawn).fr = s.fr := rfl
@[simp] theorem drawn_mem : (s.drawn).mem = s.mem := rfl
@[simp] theorem drawn_status : (s.drawn).status = s.status := rfl
@[simp] theorem drawn_draws : (s.drawn).draws = s.draws + 1 := rfl
@[simp] theorem drawn_cfg : (s.drawn).cfg = s.cfg := rfl

/-! `setAw` changes aw. -/

@[simp] theorem setAw_v (b : Bool) : (s.setAw b).v = s.v := rfl
@[simp] theorem setAw_i (b : Bool) : (s.setAw b).i = s.i := rfl
@[simp] theorem setAw_pc (b : Bool) : (s.setAw b).pc = s.pc := rfl
@[simp] theorem setAw_sp (b : Bool) : (s.setAw b).sp = s.sp := rfl
@[simp] theorem setAw_dt (b : Bool) : (s.setAw b).dt = s.dt := rfl
@[simp] theorem setAw_st (b : Bool) : (s.setAw b).st = s.st := rfl
@[simp] theorem setAw_keys (b : Bool) : (s.setAw b).keys = s.keys := rfl
@[simp] theorem setAw_aw (b : Bool) : (s.setAw b).aw = b := rfl
@[simp] theorem setAw_rs (b : Bool) : (s.setAw b).rs = s.rs := rfl
@[simp] theorem setAw_fr (b : Bool) : (s.setAw b).fr = s.fr := rfl
@[simp] theorem setAw_mem (b : Bool) : (s.setAw b).mem = s.mem := rfl
@[simp] theorem setAw_status (b : Bool) : (s.setAw b).status = s.status := rfl
@[simp] theorem setAw_draws (b : Bool) : (s.setAw b).draws = s.draws := rfl
@[simp] theorem setAw_cfg (b : Bool) : (s.setAw b).cfg = s.cfg := rfl

/-! `tickTimers` changes dt, st. -/

@[simp] theorem tickTimers_v : (tickTimers s).v = s.v := rfl
@[simp] theorem tickTimers_i : (tickTimers s).i = s.i := rfl
@[simp] theorem tickTimers_pc : (tickTimers s).pc = s.pc := rfl
@[simp] theorem tickTimers_sp : (tickTimers s).sp = s.sp := rfl
@[simp] theorem tickTimers_dt : (tickTimers s).dt = tickDown s.dt := rfl
@[simp] theorem tickTimers_st : (tickTimers s).st = tickDown s.st := rfl
@[simp] theorem tickTimers_keys : (tickTimers s).keys = s.keys := rfl
@[simp] theorem tickTimers_aw : (tickTimers s).aw = s.aw := rfl
@[simp] theorem tickTimers_rs : (tickTimers s).rs = s.rs := rfl
@[simp] theorem tickTimers_fr : (tickTimers s).fr = s.fr := rfl
@[simp] theorem tickTimers_mem : (tickTimers s).mem = s.mem := rfl
@[simp] theorem tickTimers_status : (tickTimers s).status = s.status := rfl
@[simp] theorem tickTimers_draws : (tickTimers s).draws = s.draws := rfl
@[simp] theorem tickTimers_cfg : (tickTimers s).cfg = s.cfg := rfl

/-! The accessors of registers, keys and memory over the updates of another field. -/

@[simp] theorem setReg_readByte (x : Nibble) (b : Byte) (loc : Nat) : (s.setReg x b).readByte loc = s.readByte loc := rfl
@[simp] theorem setReg_key (x : Nibble) (b : Byte) (q : Nibble) : (s.setReg x b).key q = s.key q := rfl
@[simp] theorem writeByte_reg (a : Nat) (b : Byte) (r : Nibble) : (s.writeByte a b).reg r = s.reg r := rfl
@[simp] theorem writeByte_key (a : Nat) (b : Byte) (q : Nibble) : (s.writeByte a b).key q = s.key q := rfl
@[simp] theorem jump_reg (t : Word) (r : Nibble) : (s.jump t).reg r = s.reg r := rfl
@[simp] theorem jump_readByte (t : Word) (loc : Nat) : (s.jump t).readByte loc = s.readByte loc := rfl
@[simp] theorem jump_key (t : Word) (q : Nibble) : (s.jump t).key q = s.key q := rfl
@[simp] theorem advance_reg (k : Word) (r : Nibble) : (s.advance k).reg r = s.reg r := rfl
@[simp] theorem advance_readByte (k : Word) (loc : Nat) : (s.advance k).readByte loc = s.readByte loc := rfl
@[simp] theorem advance_key (k : Word) (q : Nibble) : (s.advance k).key q = s.key q := rfl
@[simp] theorem setI_reg (a : Word) (r : Nibble) : (s.setI a).reg r = s.reg r := rfl
@[simp] theorem setI_readByte (a : Word) (loc : Nat) : (s.setI a).readByte loc = s.readByte loc := rfl
@[simp] theorem setI_key (a : Word) (q : Nibble) : (s.setI a).key q = s.key q := rfl
@[simp] theorem signal_reg (p : Status) (r : Nibble) : (s.signal p).reg r = s.reg r := rfl
@[simp] theorem signal_readByte (p : Status) (loc : Nat) : (s.signal p).readByte loc = s.readByte loc := rfl
@[simp] theorem signal_key (p : Status) (q : Nibble) : (s.signal p).key q = s.key q := rfl
@[simp] theorem raiseFatal_reg (c : Cause) (a : Nat) (r : Nibble) : (s.raiseFatal c a).reg r = s.reg r := rfl
@[simp] theorem raiseFatal_readByte (c : Cause) (a : Nat) (loc : Nat) : (s.raiseFatal c a).readByte loc = s.readByte loc := rfl
@[simp] theorem raiseFatal_key (c : Cause) (a : Nat) (q : Nibble) : (s.raiseFatal c a).key q = s.key q := rfl
@[simp] theorem drawn_reg (r : Nibble) : (s.drawn).reg r = s.reg r := rfl
@[simp] theorem drawn_readByte (loc : Nat) : (s.drawn).readByte loc = s.readByte loc := rfl
@[simp] theorem drawn_key (q : Nibble) : (s.drawn).key q = s.key q := rfl
@[simp] theorem setAw_reg (b : Bool) (r : Nibble) : (s.setAw b).reg r = s.reg r := rfl
@[simp] theorem setAw_readByte (b : Bool) (loc : Nat) : (s.setAw b).readByte loc = s.readByte loc := rfl
@[simp] theorem setAw_key (b : Bool) (q : Nibble) : (s.setAw b).key q = s.key q := rfl
@[simp] theorem tickTimers_reg (r : Nibble) : (tickTimers s).reg r = s.reg r := rfl
@[simp] theorem tickTimers_readByte (loc : Nat) : (tickTimers s).readByte loc = s.readByte loc := rfl
@[simp] theorem tickTimers_key (q : Nibble) : (tickTimers s).key q = s.key q := rfl

/-- R9, R20: a register holds what was last written to it, and a write leaves the others alone. -/
theorem setReg_reg (x r : Nibble) (b : Byte) : (s.setReg x b).reg r = if r = x then b else s.reg r := by
  simp only [State.setReg, State.reg, Vector.getElem_set, BitVec.toNat_inj, eq_comm]

@[simp] theorem setReg_reg_same (x : Nibble) (b : Byte) : (s.setReg x b).reg x = b := by
  simp [setReg_reg]

theorem setReg_reg_other {x r : Nibble} (b : Byte) (h : r ≠ x) : (s.setReg x b).reg r = s.reg r := by
  simp [setReg_reg, h]

/-- R21, R110: the flag is written last, so it is what VF holds, also when X is F. -/
theorem setRegAndFlag_reg (x r : Nibble) (b f : Byte) :
    (s.setRegAndFlag x b f).reg r = if r = regVF then f else if r = x then b else s.reg r := by
  simp only [State.setRegAndFlag, setReg_reg]

end Sys2Proof.Laws
end

