-- ==== Sys2Proof/Laws/Memory.lean ====
section
/-! SUPPORT. Memory: a read after a write, and the canonical form that every memory operation keeps; then the same for
the byte sequences the instructions write. -/

namespace Sys2Proof.Laws

open Sys2Proof.Machine

/-- Where every listed address is above `a`, `a` is unlisted. -/
theorem read_of_all_above {m : Memory} {a : Nat} (h : ∀ c ∈ m, a < c.1) : Memory.read m a = unlisted a := by
  induction m with
  | nil => rfl
  | cons c rest ih =>
    have hc : c.1 ≠ a := by have := h c (by simp); omega
    rw [Memory.read, if_neg hc]
    exact ih fun d hd => h d (by simp [hd])

/-- R61: "Every read returns the value of the most recent write to that byte". -/
theorem read_write {m : Memory} (hm : m.Pairwise (fun c d => c.1 < d.1)) (a k : Nat) (b : Byte) :
    Memory.read (Memory.write m a b) k = if k = a then b else Memory.read m k := by
  induction m with
  | nil =>
    simp only [Memory.write]
    split_ifs with h1 h2 h2 <;> simp_all [Memory.read, eq_comm]
  | cons c rest ih =>
    obtain ⟨hc, hr⟩ := List.pairwise_cons.mp hm
    rw [Memory.write]
    split
    · rename_i hlt
      have above : Memory.read (c :: rest) a = unlisted a :=
        read_of_all_above fun d hd => by
          rcases List.mem_cons.mp hd with rfl | hd
          · exact hlt
          · exact Nat.lt_trans hlt (hc d hd)
      split_ifs with h1 h2 h2
      · rw [h2, above, h1]
      · rfl
      · simp [Memory.read, h2]
      · rw [Memory.read, if_neg (fun h => h2 h.symm)]
    · split
      · rename_i heq
        have above : Memory.read rest a = unlisted a := read_of_all_above fun d hd => heq ▸ hc d hd
        split_ifs with h1 h2 h2
        · rw [h2, above, h1]
        · rw [Memory.read, if_neg (fun h => h2 (by omega))]
        · simp [Memory.read, h2]
        · rw [Memory.read, if_neg (fun h => h2 h.symm), Memory.read, if_neg (fun h => h2 (by omega))]
      · rename_i hne
        rw [Memory.read, Memory.read, ih hr]
        split_ifs with h1 h2 <;> first | rfl | (exfalso; omega)

/-- A written address, or one that was listed: nothing else is listed after a write. -/
theorem mem_write {m : Memory} {a : Nat} {b : Byte} {c : Host.Cell} (h : c ∈ Memory.write m a b) :
    (c = (a, b) ∧ b ≠ unlisted a) ∨ c ∈ m := by
  induction m with
  | nil =>
    simp only [Memory.write] at h
    split_ifs at h with h1
    · simp at h
    · exact .inl ⟨by simpa using h, h1⟩
  | cons d rest ih =>
    rw [Memory.write] at h
    split_ifs at h with h1 h2 h3 h4
    · exact .inr h
    · rcases List.mem_cons.mp h with h | h
      · exact .inl ⟨h, h2⟩
      · exact .inr h
    · exact .inr (List.mem_cons_of_mem _ h)
    · rcases List.mem_cons.mp h with h | h
      · exact .inl ⟨h, h4⟩
      · exact .inr (List.mem_cons_of_mem _ h)
    · rcases List.mem_cons.mp h with h | h
      · exact .inr (by simp [h])
      · rcases ih h with h | h
        · exact .inl h
        · exact .inr (List.mem_cons_of_mem _ h)

/-- Writing one byte of an address inside the space keeps the canonical form. -/
theorem write_wf {m : Memory} (hm : Memory.wf m) {a : Nat} (ha : a ≤ 0xFFF) (b : Byte) :
    Memory.wf (Memory.write m a b) := by
  refine ⟨?_, fun c hc => ?_⟩
  · have hp := hm.1
    clear hm
    induction m with
    | nil => simp only [Memory.write]; split_ifs <;> simp
    | cons d rest ih =>
      obtain ⟨hd, hr⟩ := List.pairwise_cons.mp hp
      rw [Memory.write]
      split_ifs with h1 h2 h3 h4
      · exact hp
      · refine List.pairwise_cons.mpr ⟨fun e he => ?_, hp⟩
        rcases List.mem_cons.mp he with rfl | he
        · exact h1
        · exact Nat.lt_trans h1 (hd e he)
      · exact hr
      · exact List.pairwise_cons.mpr ⟨fun e he => h3 ▸ hd e he, hr⟩
      · refine List.pairwise_cons.mpr ⟨fun e he => ?_, ih hr⟩
        rcases mem_write he with ⟨rfl, -⟩ | he
        · show d.1 < a; omega
        · exact hd e he
  · rcases mem_write hc with ⟨rfl, hb⟩ | hc
    · exact ⟨ha, hb⟩
    · exact hm.2 c hc

/-- The wf memory of a state reads back what `writeByte` wrote and leaves every other address alone (R61). -/
theorem writeByte_readByte {s : State} (hm : Memory.wf s.mem) (a k : Nat) (b : Byte) :
    (s.writeByte a b).readByte k = if k = a then b else s.readByte k :=
  read_write hm.1 a k b

theorem writeByte_wf {s : State} (hm : Memory.wf s.mem) {a : Nat} (ha : a ≤ 0xFFF) (b : Byte) :
    Memory.wf (s.writeByte a b).mem :=
  write_wf hm ha b

/-- Writing what a byte already holds changes nothing: equal memories are equal data. -/
theorem wf_eq_of_read_eq {m n : Memory} (hm : Memory.wf m) (hn : Memory.wf n)
    (h : ∀ a, Memory.read m a = Memory.read n a) : m = n := by
  have head : ∀ {c : Host.Cell} {r : Memory}, Memory.wf (c :: r) → Memory.read (c :: r) c.1 ≠ unlisted c.1 := by
    intro c r hw
    rw [Memory.read, if_pos rfl]
    exact (hw.2 c (by simp)).2
  have tail : ∀ {c : Host.Cell} {r : Memory}, Memory.wf (c :: r) → Memory.wf r := by
    intro c r hw
    exact ⟨(List.pairwise_cons.mp hw.1).2, fun d hd => hw.2 d (List.mem_cons_of_mem _ hd)⟩
  have above : ∀ {c : Host.Cell} {r : Memory}, Memory.wf (c :: r) → ∀ a, a < c.1 →
      Memory.read (c :: r) a = unlisted a := by
    intro c r hw a ha
    refine read_of_all_above fun d hd => ?_
    rcases List.mem_cons.mp hd with rfl | hd
    · exact ha
    · exact Nat.lt_trans ha ((List.pairwise_cons.mp hw.1).1 d hd)
  induction m generalizing n with
  | nil =>
    cases n with
    | nil => rfl
    | cons d rest => exact absurd (h d.1).symm (by simpa [Memory.read] using (hn.2 d (by simp)).2)
  | cons c r ih =>
    cases n with
    | nil => exact absurd (h c.1) (head hm)
    | cons d q =>
      have key : c.1 = d.1 := by
        rcases Nat.lt_trichotomy c.1 d.1 with hlt | heq | hgt
        · exact absurd (h c.1) (by rw [above hn _ hlt]; exact head hm)
        · exact heq
        · exact absurd (h d.1).symm (by rw [above hm _ hgt]; exact head hn)
      have val : c.2 = d.2 := by simpa [Memory.read, key] using h c.1
      have cd : c = d := Prod.ext key val
      subst cd
      have rest : ∀ a, Memory.read r a = Memory.read q a := by
        intro a
        rcases Nat.lt_trichotomy a c.1 with hlt | heq | hgt
        · rw [read_of_all_above fun e he => Nat.lt_trans hlt ((List.pairwise_cons.mp hm.1).1 e he),
            read_of_all_above fun e he => Nat.lt_trans hlt ((List.pairwise_cons.mp hn.1).1 e he)]
        · rw [heq, read_of_all_above (List.pairwise_cons.mp hm.1).1, read_of_all_above (List.pairwise_cons.mp hn.1).1]
        · have ha := h a
          rwa [Memory.read, Memory.read, if_neg (by omega), if_neg (by omega)] at ha
      rw [ih (tail hm) (tail hn) rest]

/-! Byte sequences. -/

/-- `writeBytes` changes memory only. -/
theorem writeBytes_eq (s : State) (a : Nat) (bs : List Byte) :
    s.writeBytes a bs = { s with mem := (s.writeBytes a bs).mem } := by
  induction bs generalizing s a with
  | nil => rfl
  | cons b rest ih => rw [State.writeBytes, ih]; rfl

/-- Everything `writeBytes` can do to memory: the canonical form stays, the written range reads as the sequence, the
rest reads as before. -/
theorem writeBytes_spec {s : State} (hm : Memory.wf s.mem) {a : Nat} {bs : List Byte} (ha : a + bs.length ≤ 0x1000) :
    Memory.wf (s.writeBytes a bs).mem ∧
    ∀ k, (s.writeBytes a bs).readByte k =
      if h : a ≤ k ∧ k < a + bs.length then bs[k - a] else s.readByte k := by
  induction bs generalizing s a with
  | nil =>
    refine ⟨hm, fun k => ?_⟩
    rw [dif_neg (by simp only [List.length_nil]; omega)]; rfl
  | cons b rest ih =>
    simp only [List.length_cons] at ha
    have hb := writeByte_wf hm (a := a) (by omega) b
    obtain ⟨hw, hr⟩ := ih (s := s.writeByte a b) hb (a := a + 1) (by omega)
    refine ⟨hw, fun k => ?_⟩
    rw [State.writeBytes, hr k, writeByte_readByte hm]
    simp only [List.length_cons]
    by_cases hk : k = a
    · subst hk
      rw [dif_neg (by omega), dif_pos (by omega)]
      simp
    · by_cases hin : a + 1 ≤ k ∧ k < a + 1 + rest.length
      · rw [dif_pos hin, dif_pos (by omega)]
        have : k - a = (k - (a + 1)) + 1 := by omega
        simp [this]
      · rw [dif_neg hin, dif_neg (by omega), if_neg hk]

/-- R141: the bytes CLS writes. -/
@[simp] theorem zeroBytes_length (n : Nat) : (zeroBytes n).length = n := List.length_replicate

@[simp] theorem zeroBytes_get (n k : Nat) (h : k < (zeroBytes n).length) : (zeroBytes n)[k] = 0 :=
  List.getElem_replicate ..

/-- `storeBytes` changes memory only. -/
theorem storeBytes_eq (s : State) (a : Nat) (bs : List Byte) :
    storeBytes s a bs = { s with mem := (storeBytes s a bs).mem } := by
  induction bs generalizing s a with
  | nil => rfl
  | cons b rest ih =>
    rw [storeBytes]
    split
    · exact ih s (a + 1)
    · rw [ih]; rfl

/-- R60, R193, R194: everything `storeBytes` can do to memory: the bytes of the range that the font policy does not
drop read as the sequence, the rest reads as before. -/
theorem storeBytes_spec {s : State} (hm : Memory.wf s.mem) {a : Nat} {bs : List Byte} (ha : a + bs.length ≤ 0x1000) :
    Memory.wf (storeBytes s a bs).mem ∧
    ∀ k, (storeBytes s a bs).readByte k =
      if h : (a ≤ k ∧ k < a + bs.length) ∧ dropped s.cfg k = false then bs[k - a]'(by omega) else s.readByte k := by
  induction bs generalizing s a with
  | nil =>
    refine ⟨hm, fun k => ?_⟩
    rw [dif_neg (by simp only [List.length_nil]; omega)]; rfl
  | cons b rest ih =>
    simp only [List.length_cons] at ha
    rw [storeBytes]
    set s' := if dropped s.cfg a then s else s.writeByte a b with hs'
    have hm' : Memory.wf s'.mem := by
      rw [hs']; split
      · exact hm
      · exact writeByte_wf hm (by omega) b
    have hcfg : s'.cfg = s.cfg := by rw [hs']; split <;> rfl
    have hread : ∀ k, s'.readByte k = if k = a ∧ dropped s.cfg a = false then b else s.readByte k := by
      intro k
      rw [hs']
      by_cases hd : dropped s.cfg a
      · simp [hd]
      · rw [if_neg hd, writeByte_readByte hm]; simp [hd]
    obtain ⟨hw, hr⟩ := ih (s := s') hm' (a := a + 1) (by omega)
    refine ⟨hw, fun k => ?_⟩
    rw [hr k]
    simp only [hcfg, hread, List.length_cons]
    by_cases hk : k = a
    · subst hk
      rw [dif_neg (by omega)]
      by_cases hd : dropped s.cfg k = false
      · rw [if_pos ⟨rfl, hd⟩, dif_pos ⟨by omega, hd⟩]; simp
      · rw [if_neg (fun h => hd h.2), dif_neg (fun h => hd h.2)]
    · rw [if_neg (fun h => hk h.1)]
      by_cases hin : (a + 1 ≤ k ∧ k < a + 1 + rest.length) ∧ dropped s.cfg k = false
      · rw [dif_pos hin, dif_pos ⟨by omega, hin.2⟩]
        have : k - a = (k - (a + 1)) + 1 := by omega
        simp [this]
      · rw [dif_neg hin, dif_neg (fun h => hin ⟨by omega, h.2⟩)]

end Sys2Proof.Laws
end

