-- ==== Sys2Proof/Laws/Display.lean ====
section
/-! SUPPORT. The blitter (43_display.md R173-R176): what one pixel, one row and a whole draw can do, said once, in terms
of pixels. -/

namespace Sys2Proof.Laws

open Sys2Proof.Machine

/-- R171: pixel (x, y) is one bit of the byte `pixelAddr` names. -/
theorem pixel_eq (s : State) (x y : Nat) :
    pixel s x y = (s.readByte (pixelAddr s.cfg x y)).getLsbD (7 - x % 8) := by
  rw [pixel, displayByte, pixelAddr, Nat.add_assoc]

/-- R171: the mask of column x is the bit of x and no other bit. -/
theorem pixelMask_bit (x x' : Nat) : (pixelMask x).getLsbD (7 - x' % 8) = decide (x % 8 = x' % 8) := by
  have table : ∀ a < 8, ∀ b < 8, ((0x80 : Byte) >>> a).getLsbD (7 - b) = decide (a = b) := by decide
  exact table _ (Nat.mod_lt _ (by omega)) _ (Nat.mod_lt _ (by omega))

/-- A byte meets the mask of column x exactly where the pixel's bit is set. -/
theorem and_pixelMask (b : Byte) (x : Nat) : (b &&& pixelMask x = 0) ↔ b.getLsbD (7 - x % 8) = false := by
  have table : ∀ b : Byte, ∀ a < 8, (b &&& ((0x80 : Byte) >>> a) = 0) ↔ b.getLsbD (7 - a) = false := by
    decide +kernel
  exact table b _ (Nat.mod_lt _ (by omega))

/-- Two pixels of columns below 64 share a byte and a bit only if they are the same pixel. -/
theorem pixelAddr_inj {cfg : Config} {x y x' y' : Nat} (hx : x < 64) (hx' : x' < 64)
    (h : pixelAddr cfg x y = pixelAddr cfg x' y') : y = y' ∧ x / 8 = x' / 8 := by
  simp only [pixelAddr] at h; omega

/-- What the blitter leaves alone: everything but VF and memory at or above the display. -/
structure Blits (s t : State) : Prop where
  /-- Only registers and memory change. -/
  only : t = { s with v := t.v, mem := t.mem }
  regs : ∀ r, r ≠ regVF → t.reg r = s.reg r
  below : ∀ a, a < s.cfg.displayBase → t.readByte a = s.readByte a
  wf : Memory.wf t.mem

theorem Blits.refl {s : State} (hm : Memory.wf s.mem) : Blits s s := ⟨rfl, fun _ _ => rfl, fun _ _ => rfl, hm⟩

theorem Blits.cfg_eq {s t : State} (h : Blits s t) : t.cfg = s.cfg := by rw [h.only]

theorem Blits.i_eq {s t : State} (h : Blits s t) : t.i = s.i := by rw [h.only]

theorem Blits.trans {s t u : State} (h : Blits s t) (k : Blits t u) : Blits s u where
  only := by rw [k.only, h.only]
  regs r hr := by rw [k.regs r hr, h.regs r hr]
  below a ha := by rw [k.below a (by rw [h.cfg_eq]; exact ha), h.below a ha]
  wf := k.wf

/-- R173, R175: one set sprite bit toggles its pixel and no other, and a set pixel met there sets VF. -/
theorem xorPixel_spec {s : State} (hm : Memory.wf s.mem) {x y : Nat} (hx : x < 64)
    (ha : pixelAddr s.cfg x y ≤ 0xFFF) :
    Blits s (xorPixel x y s) ∧
    (∀ px py, px < 64 → pixel (xorPixel x y s) px py = (pixel s px py ^^ decide (px = x ∧ py = y))) ∧
    (xorPixel x y s).reg regVF = if pixel s x y then 1 else s.reg regVF := by
  set a := pixelAddr s.cfg x y with hadef
  set s' := if s.readByte a &&& pixelMask x = 0 then s else s.setReg regVF 1 with hs'
  have hx' : xorPixel x y s = s'.writeByte a (s.readByte a ^^^ pixelMask x) := rfl
  have hmem : s'.mem = s.mem := by rw [hs']; split <;> rfl
  have hcfg : s'.cfg = s.cfg := by rw [hs']; split <;> rfl
  have hread : ∀ k, (xorPixel x y s).readByte k = if k = a then s.readByte a ^^^ pixelMask x else s.readByte k := by
    intro k
    rw [hx', writeByte_readByte (by rw [hmem]; exact hm)]
    simp only [State.readByte, hmem]
  have hcfg2 : (xorPixel x y s).cfg = s.cfg := by rw [hx']; exact hcfg
  refine ⟨⟨?_, ?_, ?_, ?_⟩, ?_, ?_⟩
  · rw [hx', hs']; split <;> rfl
  · intro r hr
    rw [hx', writeByte_reg, hs']
    split
    · rfl
    · exact setReg_reg_other s 1 hr
  · intro k hk
    rw [hread, if_neg]
    simp only [hadef, pixelAddr]; omega
  · rw [hx']; exact writeByte_wf (by rw [hmem]; exact hm) ha _
  · intro px py hpx
    rw [pixel_eq, pixel_eq, hread, hcfg2]
    by_cases hk : pixelAddr s.cfg px py = a
    · obtain ⟨h1, h2⟩ := pixelAddr_inj hpx hx hk
      rw [if_pos hk, BitVec.getLsbD_xor, pixelMask_bit, hk]
      congr 1
      exact decide_eq_decide.mpr (by omega)
    · rw [if_neg hk]
      have : ¬ (px = x ∧ py = y) := fun h => hk (by rw [h.1, h.2])
      simp [this]
  · rw [hx', writeByte_reg, hs', pixel_eq]
    by_cases hc : s.readByte a &&& pixelMask x = 0
    · rw [if_pos hc, if_neg]
      rw [(and_pixelMask _ _).mp hc]; simp
    · rw [if_neg hc, setReg_reg_same, if_pos]
      by_contra hf
      exact hc ((and_pixelMask _ _).mpr (by simpa using hf))

/-- The sprite bit a row byte puts at column px, with the row's origin at column x0 and columns below n drawn. -/
def rowBit (x0 n : Nat) (row : Byte) (px : Nat) : Bool :=
  decide (x0 ≤ px ∧ px < x0 + n) && row.getLsbD (7 - (px - x0))

/-- Some drawn sprite bit of 1 in the row meets a set pixel of `s` (R175). -/
def rowHit (s : State) (x0 y n : Nat) (row : Byte) : Prop :=
  ∃ c, c < n ∧ x0 + c < 64 ∧ row.getLsbD (7 - c) = true ∧ pixel s (x0 + c) y = true

/-- R173: the first n columns of a row, on the screen as it stood before the row. -/
theorem drawColumns_spec {s : State} (hm : Memory.wf s.mem) {x0 y : Nat} {row : Byte} (n : Nat) (hn : n ≤ 8)
    (ha : ∀ c < n, x0 + c < 64 → pixelAddr s.cfg (x0 + c) y ≤ 0xFFF) :
    ∃ t, (List.range n).foldl (drawColumn x0 y row) s = t ∧ Blits s t ∧
    (∀ px py, px < 64 → pixel t px py = (pixel s px py ^^ (decide (py = y) && rowBit x0 n row px))) ∧
    (rowHit s x0 y n row → t.reg regVF = 1) ∧ (¬ rowHit s x0 y n row → t.reg regVF = s.reg regVF) := by
  induction n with
  | zero =>
    refine ⟨s, rfl, .refl hm, fun px py _ => ?_, ?_, fun _ => rfl⟩
    · have : rowBit x0 0 row px = false := by simp only [rowBit]; rw [decide_eq_false (by omega)]; rfl
      simp [this]
    · rintro ⟨c, hc, _⟩; omega
  | succ n ih =>
    obtain ⟨t, ht, hb, hp, hv1, hv0⟩ := ih (by omega) fun c hc => ha c (by omega)
    rw [List.range_succ, List.foldl_append, ht]
    simp only [List.foldl_cons, List.foldl_nil, drawColumn]
    have grow : rowHit s x0 y n row → rowHit s x0 y (n + 1) row := fun ⟨c, hc, h⟩ => ⟨c, by omega, h⟩
    have last : rowHit s x0 y (n + 1) row → ¬ rowHit s x0 y n row →
        x0 + n < 64 ∧ row.getLsbD (7 - n) = true ∧ pixel s (x0 + n) y = true := by
      rintro ⟨c, hc, h⟩ hno
      rcases Nat.lt_or_ge c n with hlt | hge
      · exact absurd ⟨c, hlt, h⟩ hno
      · have : c = n := by omega
        subst this; exact h
    by_cases hclip : 64 ≤ x0 + n
    · rw [if_pos hclip]
      refine ⟨t, rfl, hb, fun px py hpx => ?_, fun h => ?_, fun h => hv0 fun k => h (grow k)⟩
      · rw [hp px py hpx]
        congr 2
        simp only [rowBit]; congr 1; exact decide_eq_decide.mpr (by omega)
      · by_cases hk : rowHit s x0 y n row
        · exact hv1 hk
        · have := (last h hk).1; omega
    · rw [if_neg hclip]
      by_cases hbit : row.getLsbD (7 - n) = true
      · rw [if_pos hbit]
        have hx : x0 + n < 64 := by omega
        obtain ⟨qb, qp, qv⟩ := xorPixel_spec (s := t) hb.wf (x := x0 + n) (y := y) hx
          (by rw [hb.cfg_eq]; exact ha n (by omega) hx)
        have old : pixel t (x0 + n) y = pixel s (x0 + n) y := by
          rw [hp _ _ hx]
          simp [rowBit]
        refine ⟨_, rfl, hb.trans qb, fun px py hpx => ?_, fun h => ?_, fun h => ?_⟩
        · rw [qp px py hpx, hp px py hpx, Bool.xor_assoc]
          congr 1
          simp only [rowBit]
          by_cases hy : py = y
          · subst hy
            by_cases hpn : px = x0 + n
            · subst hpn; simp [hbit]
            · have e2 : (x0 ≤ px ∧ px < x0 + n) ↔ (x0 ≤ px ∧ px < x0 + (n + 1)) := by omega
              simp [hpn, decide_eq_decide.mpr e2]
          · simp [hy]
        · rw [qv, old]
          by_cases hk : rowHit s x0 y n row
          · rw [hv1 hk]; split <;> rfl
          · rw [if_pos (last h hk).2.2]
        · rw [qv, old, if_neg, hv0 fun k => h (grow k)]
          intro hset
          exact h ⟨n, by omega, hx, hbit, hset⟩
      · rw [if_neg hbit]
        refine ⟨t, rfl, hb, fun px py hpx => ?_, fun h => ?_, fun h => hv0 fun k => h (grow k)⟩
        · rw [hp px py hpx]
          congr 2
          simp only [rowBit]
          by_cases hpn : px = x0 + n
          · subst hpn
            have : row.getLsbD (7 - n) = false := by simpa using hbit
            simp [this]
          · congr 1; exact decide_eq_decide.mpr (by omega)
        · by_cases hk : rowHit s x0 y n row
          · exact hv1 hk
          · exact absurd (last h hk).2.1 hbit

/-- Everything a row can do (R173, R175). -/
theorem drawRow_spec {s : State} (hm : Memory.wf s.mem) {x0 y : Nat} {row : Byte}
    (ha : ∀ c < 8, x0 + c < 64 → pixelAddr s.cfg (x0 + c) y ≤ 0xFFF) :
    Blits s (drawRow x0 y row s) ∧
    (∀ px py, px < 64 →
      pixel (drawRow x0 y row s) px py = (pixel s px py ^^ (decide (py = y) && rowBit x0 8 row px))) ∧
    (rowHit s x0 y 8 row → (drawRow x0 y row s).reg regVF = 1) ∧
    (¬ rowHit s x0 y 8 row → (drawRow x0 y row s).reg regVF = s.reg regVF) := by
  obtain ⟨t, ht, h⟩ := drawColumns_spec hm (row := row) 8 (by omega) ha
  rw [drawRow, ht]; exact h

/-- Rows of one draw land on distinct rows (R175): two rows fewer than 32 apart never share a place. -/
theorem rowPlace_inj {cfg : Config} {y1 y2 y : Nat} (h1 : rowPlace cfg y1 = some y) (h2 : rowPlace cfg y2 = some y)
    (hd : y1 < y2 + 32) (hd' : y2 < y1 + 32) : y1 = y2 := by
  simp only [rowPlace] at h1 h2
  cases hv : cfg.vertical <;> simp only [hv] at h1 h2 <;> split_ifs at h1 h2 <;> simp_all <;> omega

/-- The byte of sprite row r, read when the row starts, after the earlier rows (R176). -/
def spriteByte (x0 y0 : Nat) (s : State) (r : Nat) : Byte := (drawRows x0 y0 r s).readByte (s.i.toNat + r)

/-- Some drawn sprite bit of 1 among the first n rows meets a set pixel of `s` (R175). -/
def spriteHit (x0 y0 n : Nat) (s : State) : Prop :=
  ∃ r < n, ∃ y, rowPlace s.cfg (y0 + r) = some y ∧ rowHit s x0 y 8 (spriteByte x0 y0 s r)

/-- Everything a draw can do (R173-R176): rows are drawn onto distinct rows of the screen, so each pixel of a row is
toggled by that row's byte alone, and VF tells whether a set bit met a pixel that was set before the draw. -/
theorem drawRows_spec {s : State} (hm : Memory.wf s.mem) {x0 y0 : Nat} (n : Nat) (hn : n ≤ 16)
    (ha : ∀ r < n, ∀ y, rowPlace s.cfg (y0 + r) = some y → ∀ c < 8, x0 + c < 64 →
      pixelAddr s.cfg (x0 + c) y ≤ 0xFFF) :
    Blits s (drawRows x0 y0 n s) ∧
    (∀ r < n, ∀ y, rowPlace s.cfg (y0 + r) = some y → ∀ px < 64,
      pixel (drawRows x0 y0 n s) px y = (pixel s px y ^^ rowBit x0 8 (spriteByte x0 y0 s r) px)) ∧
    (∀ y, (∀ r < n, rowPlace s.cfg (y0 + r) ≠ some y) → ∀ px < 64,
      pixel (drawRows x0 y0 n s) px y = pixel s px y) ∧
    (spriteHit x0 y0 n s → (drawRows x0 y0 n s).reg regVF = 1) ∧
    (¬ spriteHit x0 y0 n s → (drawRows x0 y0 n s).reg regVF = s.reg regVF) := by
  induction n with
  | zero =>
    refine ⟨.refl hm, fun r hr => by omega, fun y _ px _ => rfl, ?_, fun _ => rfl⟩
    rintro ⟨r, hr, _⟩; omega
  | succ n ih =>
    obtain ⟨hb, hon, hoff, hv1, hv0⟩ := ih (by omega) fun r hr => ha r (by omega)
    have hstep : drawRows x0 y0 (n + 1) s = drawSpriteRow x0 y0 (drawRows x0 y0 n s) n := by
      simp only [drawRows, List.range_succ, List.foldl_append, List.foldl_cons, List.foldl_nil]
    have hbyte : (drawRows x0 y0 n s).readByte ((drawRows x0 y0 n s).i.toNat + n) = spriteByte x0 y0 s n := by
      rw [hb.i_eq]; rfl
    have grow : spriteHit x0 y0 n s → spriteHit x0 y0 (n + 1) s := fun ⟨r, hr, h⟩ => ⟨r, by omega, h⟩
    have fresh : ∀ {y}, rowPlace s.cfg (y0 + n) = some y → ∀ r < n, rowPlace s.cfg (y0 + r) ≠ some y := by
      intro y hy r hr h
      have := rowPlace_inj h hy (by omega) (by omega)
      omega
    have last : spriteHit x0 y0 (n + 1) s → ¬ spriteHit x0 y0 n s →
        ∃ y, rowPlace s.cfg (y0 + n) = some y ∧ rowHit s x0 y 8 (spriteByte x0 y0 s n) := by
      rintro ⟨r, hr, h⟩ hno
      rcases Nat.lt_or_ge r n with hlt | hge
      · exact absurd ⟨r, hlt, h⟩ hno
      · have : r = n := by omega
        subst this; exact h
    rw [hstep, drawSpriteRow, hb.cfg_eq]
    rcases hplace : rowPlace s.cfg (y0 + n) with _ | y1
    · refine ⟨hb, fun r hr y hy => ?_, fun y hy => hoff y fun r hr => hy r (by omega), fun h => ?_,
        fun h => hv0 fun k => h (grow k)⟩
      · rcases Nat.lt_or_ge r n with hlt | hge
        · exact hon r hlt y hy
        · have : r = n := by omega
          subst this; rw [hplace] at hy; cases hy
      · by_cases hk : spriteHit x0 y0 n s
        · exact hv1 hk
        · obtain ⟨y, hy, _⟩ := last h hk
          rw [hplace] at hy; cases hy
    · obtain ⟨qb, qp, qv1, qv0⟩ := drawRow_spec (s := drawRows x0 y0 n s) hb.wf (x0 := x0) (y := y1)
        (row := spriteByte x0 y0 s n) (by rw [hb.cfg_eq]; exact ha n (by omega) y1 hplace)
      have hitEq : rowHit (drawRows x0 y0 n s) x0 y1 8 (spriteByte x0 y0 s n) ↔
          rowHit s x0 y1 8 (spriteByte x0 y0 s n) := by
        simp only [rowHit]
        refine exists_congr fun c => and_congr_right fun _ => and_congr_right fun hc => ?_
        rw [hoff y1 (fresh hplace) _ hc]
      simp only [hbyte]
      refine ⟨hb.trans qb, fun r hr y hy px hpx => ?_, fun y hy px hpx => ?_, fun h => ?_, fun h => ?_⟩
      · rw [qp px y hpx]
        rcases Nat.lt_or_ge r n with hlt | hge
        · have hne : y ≠ y1 := fun e => fresh hplace r hlt (e ▸ hy)
          rw [hon r hlt y hy px hpx]; simp [hne]
        · have : r = n := by omega
          subst this
          rw [hplace] at hy; cases hy
          rw [hoff y1 (fresh hplace) px hpx]; simp
      · have hne : y ≠ y1 := fun e => hy n (by omega) (e ▸ hplace)
        rw [qp px y hpx, hoff y (fun r hr => hy r (by omega)) px hpx]; simp [hne]
      · by_cases hrow : rowHit s x0 y1 8 (spriteByte x0 y0 s n)
        · exact qv1 (hitEq.mpr hrow)
        · rw [qv0 fun k => hrow (hitEq.mp k)]
          refine hv1 (by_contra fun hk => ?_)
          obtain ⟨y, hy, hit⟩ := last h hk
          rw [hplace] at hy; cases hy
          exact hrow hit
      · rw [qv0 fun k => h ⟨n, by omega, y1, hplace, hitEq.mp k⟩]
        exact hv0 fun k => h (grow k)

/-- What a draw may touch in any state at all, canonical memory or not: memory, and of the registers VF alone. -/
structure Touches (s t : State) : Prop where
  only : t = { s with v := t.v, mem := t.mem }
  regs : ∀ r, r ≠ regVF → t.reg r = s.reg r

theorem Touches.refl (s : State) : Touches s s := ⟨rfl, fun _ _ => rfl⟩

theorem Touches.trans {s t u : State} (h : Touches s t) (k : Touches t u) : Touches s u :=
  ⟨by rw [k.only, h.only], fun r hr => (k.regs r hr).trans (h.regs r hr)⟩

theorem Touches.foldl {α : Type} {f : State → α → State} (hf : ∀ s a, Touches s (f s a)) (l : List α) (s : State) :
    Touches s (l.foldl f s) := by
  induction l generalizing s with
  | nil => exact .refl s
  | cons a l ih => exact (hf s a).trans (ih _)

theorem drawColumn_touches (x0 y : Nat) (row : Byte) (s : State) (c : Nat) : Touches s (drawColumn x0 y row s c) := by
  rw [drawColumn]
  split
  · exact .refl s
  · split
    · rw [xorPixel]
      split
      · exact ⟨rfl, fun _ _ => rfl⟩
      · exact ⟨rfl, fun r hr => setReg_reg_other s 1 hr⟩
    · exact .refl s

/-- R173: a draw touches memory and VF alone. -/
theorem drawRows_touches (x0 y0 n : Nat) (s : State) : Touches s (drawRows x0 y0 n s) := by
  refine .foldl (fun s r => ?_) _ s
  rw [drawSpriteRow]
  split
  · exact .refl s
  · exact .foldl (drawColumn_touches x0 _ _) _ s

/-- R173: a byte that holds no drawn pixel is as before the columns of a row. -/
theorem drawColumns_keeps {s : State} (hm : Memory.wf s.mem) {x0 y a : Nat} {row : Byte} (n : Nat) (hn : n ≤ 8)
    (ha : ∀ c < 8, x0 + c < 64 → pixelAddr s.cfg (x0 + c) y ≤ 0xFFF ∧ a ≠ pixelAddr s.cfg (x0 + c) y) :
    Memory.wf ((List.range n).foldl (drawColumn x0 y row) s).mem ∧
      ((List.range n).foldl (drawColumn x0 y row) s).readByte a = s.readByte a := by
  induction n with
  | zero => exact ⟨hm, rfl⟩
  | succ n ih =>
    obtain ⟨w, e⟩ := ih (by omega)
    have hc := (Touches.foldl (drawColumn_touches x0 y row) (List.range n) s).only
    rw [List.range_succ, List.foldl_append, List.foldl_cons, List.foldl_nil]
    set t := (List.range n).foldl (drawColumn x0 y row) s
    have hcfg : t.cfg = s.cfg := by rw [hc]
    rw [drawColumn]
    split
    · exact ⟨w, e⟩
    · rename_i hx
      obtain ⟨h1, h2⟩ := ha n (by omega) (by omega)
      split
      · refine ⟨(xorPixel_spec w (by omega) (by rw [hcfg]; exact h1)).1.wf, ?_⟩
        rw [xorPixel, writeByte_readByte (by split <;> exact w), if_neg (by rw [hcfg]; exact h2), ← e]
        split <;> rfl
      · exact ⟨w, e⟩

/-- R51, R173: a byte that holds no drawn pixel is as before the draw. -/
theorem drawRows_keeps {s : State} (hm : Memory.wf s.mem) {x0 y0 a : Nat} (n : Nat)
    (ha : ∀ r < n, ∀ y, rowPlace s.cfg (y0 + r) = some y → ∀ c < 8, x0 + c < 64 →
      pixelAddr s.cfg (x0 + c) y ≤ 0xFFF ∧ a ≠ pixelAddr s.cfg (x0 + c) y) :
    Memory.wf (drawRows x0 y0 n s).mem ∧ (drawRows x0 y0 n s).readByte a = s.readByte a := by
  induction n with
  | zero => exact ⟨hm, rfl⟩
  | succ n ih =>
    obtain ⟨w, e⟩ := ih fun r hr => ha r (by omega)
    have hstep : drawRows x0 y0 (n + 1) s = drawSpriteRow x0 y0 (drawRows x0 y0 n s) n := by
      simp only [drawRows, List.range_succ, List.foldl_append, List.foldl_cons, List.foldl_nil]
    have hcfg : (drawRows x0 y0 n s).cfg = s.cfg := by rw [(drawRows_touches x0 y0 n s).only]
    rw [hstep, drawSpriteRow]
    split
    · exact ⟨w, e⟩
    · rename_i y hy
      rw [hcfg] at hy
      obtain ⟨w', e'⟩ := drawColumns_keeps (a := a) (row := (drawRows x0 y0 n s).readByte ((drawRows x0 y0 n s).i.toNat + n))
        w 8 (by omega) (by rw [hcfg]; exact ha n (by omega) y hy)
      exact ⟨w', e'.trans e⟩

end Sys2Proof.Laws
end

