-- ==== Sys2Proof/Laws/Ops.lean ====
section
/-! SUPPORT. One lemma for each shared check and operation, saying once what it can answer; and the cases of a step. -/

namespace Sys2Proof.Laws

open Sys2Proof.Machine

/-- R55: no address is reported where all exist. -/
theorem outOfRange_none {a n : Nat} (h : a + n ≤ 0x1000) : outOfRange a n = none := by
  rw [outOfRange, if_neg]; omega

/-- R55: the first address above 0xFFF. -/
theorem outOfRange_some {a n e : Nat} (h : outOfRange a n = some e) :
    0 < n ∧ 0x1000 < a + n ∧ e = if 0xFFF < a then a else 0x1000 := by
  rw [outOfRange] at h
  split_ifs at h with h1 h2 <;> simp only [Option.some.injEq] at h <;> simp_all <;> omega

/-- R60: font_check passes where no byte lies below 0x050, and under IGNORE and STORE. -/
theorem fontCheck_none {cfg : Config} {a : Nat} (n : Nat) (h : cfg.fontWrite = .fault → 0x050 ≤ a) :
    fontCheck cfg a n = none := by
  rw [fontCheck]
  split
  · rename_i hf; rw [if_neg]; have := h hf; omega
  · rfl
  · rfl

/-- R60: what font_check reports. -/
theorem fontCheck_some {cfg : Config} {a n e : Nat} (h : fontCheck cfg a n = some e) :
    cfg.fontWrite = .fault ∧ 0 < n ∧ a < 0x050 ∧ e = a := by
  rw [fontCheck] at h
  split at h
  · rename_i hf
    split_ifs at h with h1
    exact ⟨hf, h1.1, h1.2, by simpa using h.symm⟩
  · cases h
  · cases h

/-- R193, R194: the checks of FX33 and FX55 pass. -/
theorem storeCheck_none {cfg : Config} {a n : Nat} (h : a + n ≤ 0x1000) (hf : cfg.fontWrite = .fault → 0x050 ≤ a) :
    storeCheck cfg a n = none := by
  rw [storeCheck, outOfRange_none h, fontCheck_none n hf]

/-- R193, R194: where the checks pass, the bytes exist. -/
theorem storeCheck_bound {cfg : Config} {a n : Nat} (hn : 0 < n) (h : storeCheck cfg a n = none) : a + n ≤ 0x1000 := by
  rw [storeCheck] at h
  rcases he : outOfRange a n with _ | e
  · rw [outOfRange] at he
    split_ifs at he with h1; omega
  · rw [he] at h; cases h

/-- R94, R235: what an Unimplemented word does. -/
theorem unimplemented_cases (w k : Word) (s : State) :
    (s.cfg.undefinedWords = .noop ∧ unimplemented w k s = .next ((s.signal .unimplemented).advance k)) ∨
    (s.cfg.undefinedWords = .fault ∧ unimplemented w k s = .next (s.raiseFatal .undefinedInstruction w.toNat)) := by
  rw [unimplemented]
  split
  · rename_i h; exact .inl ⟨h, rfl⟩
  · rename_i h; exact .inr ⟨h, rfl⟩

/-- R195: `loadRegs` changes the registers only. -/
theorem loadRegs_eq (s : State) (a n : Nat) : loadRegs s a n = { s with v := (loadRegs s a n).v } := by
  simp only [loadRegs]
  induction n with
  | zero => rfl
  | succ n ih =>
    rw [List.range_succ, List.foldl_append]
    simp only [List.foldl_cons, List.foldl_nil]
    rw [ih]; rfl

/-- R195: V[0] .. V[n-1] are loaded, the others kept. -/
theorem loadRegs_reg (s : State) (a n : Nat) (hn : n ≤ 16) (r : Nibble) :
    (loadRegs s a n).reg r = if r.toNat < n then s.readByte (a + r.toNat) else s.reg r := by
  simp only [loadRegs]
  induction n with
  | zero => simp
  | succ n ih =>
    rw [List.range_succ, List.foldl_append]
    simp only [List.foldl_cons, List.foldl_nil, setReg_reg]
    rw [ih (by omega)]
    have hr : r = BitVec.ofNat 4 n ↔ r.toNat = n := by
      rw [← BitVec.toNat_inj, BitVec.toNat_ofNat, Nat.mod_eq_of_lt (by omega)]
    by_cases h : r.toNat = n
    · rw [if_pos (hr.mpr h), if_pos (by omega), h]
    · rw [if_neg (fun k => h (hr.mp k))]
      split_ifs <;> first | rfl | (exfalso; omega)

/-- R194: the list FX55 stores. -/
theorem regsUpTo_length (s : State) (x : Nibble) : (regsUpTo s x).length = x.toNat + 1 := by
  have := x.isLt
  simp only [regsUpTo, List.length_take, Vector.length_toList]; omega

theorem regsUpTo_get (s : State) (x : Nibble) (k : Nat) (h : k < (regsUpTo s x).length) :
    (regsUpTo s x)[k] = s.reg (BitVec.ofNat 4 k) := by
  have hk : k < 16 := by rw [regsUpTo_length] at h; have := x.isLt; omega
  simp only [regsUpTo, List.getElem_take, Vector.getElem_toList, State.reg]
  congr 1
  rw [BitVec.toNat_ofNat]; omega

/-- R204: the least pressed key. -/
theorem firstPressed_some {s : State} {k : Nibble} (h : firstPressed s = some k) :
    s.key k = true ∧ ∀ j : Nibble, j.toNat < k.toNat → s.key j = false := by
  rw [firstPressed, List.find?_eq_some_iff_append] at h
  obtain ⟨hk, as, bs, hl, hno⟩ := h
  refine ⟨hk, fun j hj => ?_⟩
  have hlen : as.length = k.toNat := by
    have h1 : as.length < ((List.range 16).map (BitVec.ofNat 4)).length := by rw [hl]; simp
    have h2 : ((List.range 16).map (BitVec.ofNat 4))[as.length] = k := by simp [hl]
    simp only [List.length_map, List.length_range] at h1
    rw [← h2]; simp [BitVec.toNat_ofNat]; omega
  have hin : j ∈ as := by
    have h1 : j.toNat < as.length := by omega
    have h2 : as[j.toNat] = ((List.range 16).map (BitVec.ofNat 4))[j.toNat]'(by simpa using j.isLt) := by
      simp [hl, List.getElem_append_left h1]
    have h3 : ((List.range 16).map (BitVec.ofNat 4))[j.toNat]'(by simpa using j.isLt) = j := by simp
    exact List.mem_iff_getElem.mpr ⟨_, h1, h2.trans h3⟩
  simpa using hno j hin

/-- R204: no key is pressed. -/
theorem firstPressed_none {s : State} (h : firstPressed s = none) (j : Nibble) : s.key j = false := by
  rw [firstPressed, List.find?_eq_none] at h
  have : j ∈ (List.range 16).map (BitVec.ofNat 4) := List.mem_map.mpr ⟨j.toNat, by simpa using j.isLt, by simp⟩
  simpa using h j this

/-- R173, R174: where the checks of DXYN pass, every sprite byte and every drawn pixel lies inside memory. -/
theorem spriteCheck_none {s : State} {x0 y0 n : Nat} (h : spriteCheck s x0 y0 n = none) :
    s.i.toNat + n ≤ 0x1000 ∨ n = 0 := by
  rw [spriteCheck, Option.or_eq_none_iff, Option.or_eq_none_iff] at h
  obtain ⟨⟨h, -⟩, -⟩ := h
  rw [spriteReadCheck] at h
  rcases he : outOfRange s.i.toNat n with _ | e
  · rw [outOfRange] at he
    split_ifs at he with h1; omega
  · rw [he] at h; cases h

theorem spriteCheck_targets {s : State} {x0 y0 n : Nat} (h : spriteCheck s x0 y0 n = none) :
    ∀ r < n, ∀ y, rowPlace s.cfg (y0 + r) = some y → ∀ c < 8, x0 + c < 64 →
      pixelAddr s.cfg (x0 + c) y ≤ 0xFFF := by
  intro r hr y hy c hc hx
  have hd := s.cfg.domain
  rw [spriteCheck, Option.or_eq_none_iff] at h
  have hw := h.2
  have small : y < 32 → pixelAddr s.cfg (x0 + c) y ≤ 0xFFF := by
    intro hy; simp only [pixelAddr]; omega
  rw [rowPlace] at hy
  split_ifs at hy with hlt
  · cases hy; exact small hlt
  · rcases hv : s.cfg.vertical <;> simp only [hv] at hy
    · cases hy
    · cases hy; exact small (Nat.mod_lt _ (by omega))
    · cases hy
    · cases hy
      rw [spriteWriteCheck, hv] at hw
      rcases hf : (spriteTargets s.cfg x0 y0 n).find? (fun a => decide (0xFFF < a)) with _ | a
      · rw [List.find?_eq_none] at hf
        have hin : pixelAddr s.cfg (x0 + c) (y0 + r) ∈ spriteTargets s.cfg x0 y0 n := by
          simp only [spriteTargets, List.mem_flatMap, List.mem_map, List.mem_filter, List.mem_range, decide_eq_true_eq]
          exact ⟨r, hr, c, ⟨hc, hx⟩, rfl⟩
        have := hf _ hin
        simpa using this
      · simp only [hf] at hw; cases hw

/-- A range cut at one of its members. -/
theorem range_split {m k : Nat} (h : k < m) : List.range m = List.range k ++ k :: (List.range (m - k - 1)).map (k + 1 + ·) := by
  rw [show m = k + (1 + (m - k - 1)) by omega, List.range_add, List.range_add]
  congr 1; simp [List.range_succ]

/-- R173: the first destination address above 0xFFF, row by row and column by column. -/
theorem spriteTargets_find {cfg : Config} {x0 y0 n r c : Nat} (hr : r < n) (hc : c < 8) (hx : x0 + c < 64)
    (ha : 0xFFF < pixelAddr cfg (x0 + c) (y0 + r))
    (hall : ∀ r' c', c' < 8 → x0 + c' < 64 → (r' < r ∨ (r' = r ∧ c' < c)) →
      pixelAddr cfg (x0 + c') (y0 + r') ≤ 0xFFF) :
    (spriteTargets cfg x0 y0 n).find? (fun a => decide (0xFFF < a)) = some (pixelAddr cfg (x0 + c) (y0 + r)) := by
  rw [spriteTargets, List.find?_flatMap, List.findSome?_eq_some_iff]
  refine ⟨_, r, _, range_split hr, ?_, fun r' hr' => ?_⟩
  · rw [List.find?_map, List.find?_filter, range_split hc, List.find?_append, List.find?_eq_none.mpr, List.find?_cons_of_pos]
    · rfl
    · simp [hx, ha]
    · intro c' hc'
      rw [List.mem_range] at hc'
      simp only [Function.comp, decide_eq_true_eq, not_and]
      intro hx'
      have := hall r c' (by omega) hx' (.inr ⟨rfl, hc'⟩)
      omega
  · rw [List.find?_eq_none]
    intro a ha
    simp only [List.mem_map, List.mem_filter, List.mem_range, decide_eq_true_eq] at ha hr'
    obtain ⟨c', ⟨h1, h2⟩, rfl⟩ := ha
    have := hall r' c' h1 h2 (.inl hr')
    simp only [decide_eq_true_eq]; omega

/-- R231: a committed step: the ticked state of an execute phase that raised nothing, or the state before the step with
the fault latched. -/
theorem commit_next {s t : State} {r : Result} (h : commit s r = .next t) :
    ∃ u, r = .next u ∧ ((u.rs = .running ∧ t = endStep u) ∨ (u.rs = .faulted ∧ t = discardStep s u)) := by
  rcases r with u | f | e
  · refine ⟨u, rfl, ?_⟩
    simp only [commit] at h
    split at h
    · rename_i hr; exact .inl ⟨hr, by injection h with h; exact h.symm⟩
    · rename_i hr; exact .inr ⟨hr, by injection h with h; exact h.symm⟩
  · cases h
  · cases h

/-- R83: everything a step can be. -/
theorem step_next {s t : State} (h : step s = .next t) :
    (s.rs = .faulted ∧ t = idleStep s) ∨
    (s.rs = .running ∧ ∃ u, fetchAndExecute (beginStep s) = .next u ∧
      ((u.rs = .running ∧ t = endStep u) ∨ (u.rs = .faulted ∧ t = discardStep s u))) := by
  rw [step] at h
  split at h
  · rename_i hr; exact .inl ⟨hr, by injection h with h; exact h.symm⟩
  · rename_i hr; exact .inr ⟨hr, commit_next h⟩

/-- R83: a step of a running machine. -/
theorem step_running {s : State} (h : s.rs = .running) : step s = commit s (fetchAndExecute (beginStep s)) := by
  rw [step]; split <;> simp_all

/-- R81: what a fetch and execute is, where both bytes of the word exist. -/
theorem fetchAndExecute_ok {s : State} (h : s.pc.toNat ≤ 0xFFE) :
    fetchAndExecute s = dispatch (fetchWord s) s := by
  rw [fetchAndExecute, fetchCheck, if_neg (by omega)]

/-- R81: and where they do not. -/
theorem fetchAndExecute_outOfRange {s : State} (h : 0xFFE < s.pc.toNat) :
    fetchAndExecute s = .next (s.raiseFatal .fetchOutOfRange (if s.pc.toNat = 0xFFF then s.pc.toNat + 1 else s.pc.toNat)) := by
  rw [fetchAndExecute, fetchCheck, if_pos h]; rfl

/-- R83: the start of a step touches the status and, by the phase, the timers. -/
theorem beginStep_eq (s : State) :
    beginStep s = { s with status := .ok, dt := (beginStep s).dt, st := (beginStep s).st } := by
  rw [beginStep]; split <;> rfl

/-- R83: the end of a step touches the timers at most. -/
theorem endStep_eq (s : State) : endStep s = { s with dt := (endStep s).dt, st := (endStep s).st } := by
  rw [endStep]; split <;> rfl

/-- R199: a tick is one down, floored at zero. -/
theorem tickDown_toNat (t : Byte) : (tickDown t).toNat = t.toNat - 1 := by
  rw [tickDown]
  split
  · rename_i h; rw [h]; rfl
  · rename_i h
    have h0 : t.toNat ≠ 0 := fun k => h (BitVec.eq_of_toNat_eq k)
    have := t.isLt
    rw [BitVec.toNat_sub, show (1 : Byte).toNat = 1 from rfl]
    omega

/-- R81, R83: a step of a running machine whose word exists. -/
theorem step_fetched {s : State} (hr : s.rs = .running) (hp : s.pc.toNat ≤ 0xFFE) :
    step s = commit s (dispatch (fetchWord s) (beginStep s)) := by
  have hw : fetchWord (beginStep s) = fetchWord s := by rw [beginStep_eq]; rfl
  rw [step_running hr, fetchAndExecute_ok (by rw [beginStep_eq]; exact hp), hw]

/-- R231: an instruction that takes a Fatal. -/
theorem fatal_next {s t : State} {cause : Cause} {addr : Nat} (h : fatal s cause addr = .next t) :
    t = faultedState s cause addr := by
  injection h with h; exact h.symm

end Sys2Proof.Laws
end

