-- ==== Sys2Proof/Laws/PerInstr.lean ====
section
/-! SUPPORT. The family TableRow: the word of every instruction matches its own row of spec/opcode_table.json, under the
row's mask and match. -/

namespace Sys2Proof.Laws

/-- The row's "mask" (spec/opcode_table.json). -/
def TableRow.mask : Instr → Word
  | .sys _ => 0xF000
  | .cls => 0xFFFF
  | .ret => 0xFFFF
  | .jp _ => 0xF000
  | .call _ => 0xF000
  | .seImm _ _ => 0xF000
  | .sneImm _ _ => 0xF000
  | .seReg _ _ _ => 0xF000
  | .ldImm _ _ => 0xF000
  | .addImm _ _ => 0xF000
  | .ldReg _ _ => 0xF00F
  | .orReg _ _ => 0xF00F
  | .andReg _ _ => 0xF00F
  | .xorReg _ _ => 0xF00F
  | .addReg _ _ => 0xF00F
  | .subReg _ _ => 0xF00F
  | .shr _ _ => 0xF00F
  | .subn _ _ => 0xF00F
  | .shl _ _ => 0xF00F
  | .sneReg _ _ _ => 0xF000
  | .ldI _ => 0xF000
  | .jpV0 _ => 0xF000
  | .rnd _ _ => 0xF000
  | .drw _ _ _ => 0xF000
  | .skp _ => 0xF0FF
  | .sknp _ => 0xF0FF
  | .ldVxDt _ => 0xF0FF
  | .ldVxK _ => 0xF0FF
  | .ldDtVx _ => 0xF0FF
  | .ldStVx _ => 0xF0FF
  | .addI _ => 0xF0FF
  | .ldF _ => 0xF0FF
  | .ldB _ => 0xF0FF
  | .ldMemVx _ => 0xF0FF
  | .ldVxMem _ => 0xF0FF

/-- The row's "match" (spec/opcode_table.json). -/
def TableRow.pattern : Instr → Word
  | .sys _ => 0x0000
  | .cls => 0x00E0
  | .ret => 0x00EE
  | .jp _ => 0x1000
  | .call _ => 0x2000
  | .seImm _ _ => 0x3000
  | .sneImm _ _ => 0x4000
  | .seReg _ _ _ => 0x5000
  | .ldImm _ _ => 0x6000
  | .addImm _ _ => 0x7000
  | .ldReg _ _ => 0x8000
  | .orReg _ _ => 0x8001
  | .andReg _ _ => 0x8002
  | .xorReg _ _ => 0x8003
  | .addReg _ _ => 0x8004
  | .subReg _ _ => 0x8005
  | .shr _ _ => 0x8006
  | .subn _ _ => 0x8007
  | .shl _ _ => 0x800E
  | .sneReg _ _ _ => 0x9000
  | .ldI _ => 0xA000
  | .jpV0 _ => 0xB000
  | .rnd _ _ => 0xC000
  | .drw _ _ _ => 0xD000
  | .skp _ => 0xE09E
  | .sknp _ => 0xE0A1
  | .ldVxDt _ => 0xF007
  | .ldVxK _ => 0xF00A
  | .ldDtVx _ => 0xF015
  | .ldStVx _ => 0xF018
  | .addI _ => 0xF01E
  | .ldF _ => 0xF029
  | .ldB _ => 0xF033
  | .ldMemVx _ => 0xF055
  | .ldVxMem _ => 0xF065

/-- The word of `i` agrees with its row's match wherever the row's mask is set. -/
def TableRow.Statement (i : Instr) : Prop := encode i &&& TableRow.mask i = TableRow.pattern i

theorem packNNN_group (g : Nibble) (nnn : Addr12) : packNNN g nnn &&& 0xF000 = g.setWidth 16 <<< 12 := by
  ext j hj
  simp only [packNNN]
  interval_cases j <;> simp

theorem packXNN_group (g x : Nibble) (nn : Byte) : packXNN g x nn &&& 0xF000 = g.setWidth 16 <<< 12 := by
  ext j hj
  simp only [packXNN]
  interval_cases j <;> simp

theorem packXNN_sub (g x : Nibble) (nn : Byte) :
    packXNN g x nn &&& 0xF0FF = (g.setWidth 16 <<< 12 ||| nn.setWidth 16 : Word) := by
  ext j hj
  simp only [packXNN]
  interval_cases j <;> simp

theorem packXYN_group (g x y n : Nibble) : packXYN g x y n &&& 0xF000 = g.setWidth 16 <<< 12 := by
  ext j hj
  simp only [packXYN]
  interval_cases j <;> simp

theorem packXYN_sub (g x y n : Nibble) :
    packXYN g x y n &&& 0xF00F = (g.setWidth 16 <<< 12 ||| n.setWidth 16 : Word) := by
  ext j hj
  simp only [packXYN]
  interval_cases j <;> simp

theorem TableRow.sys (nnn : Addr12) : TableRow.Statement (.sys nnn) :=
  (packNNN_group _ _).trans rfl

theorem TableRow.cls : TableRow.Statement (.cls) := by
  unfold TableRow.Statement; decide

theorem TableRow.ret : TableRow.Statement (.ret) := by
  unfold TableRow.Statement; decide

theorem TableRow.jp (nnn : Addr12) : TableRow.Statement (.jp nnn) :=
  (packNNN_group _ _).trans rfl

theorem TableRow.call (nnn : Addr12) : TableRow.Statement (.call nnn) :=
  (packNNN_group _ _).trans rfl

theorem TableRow.seImm (x : Nibble) (nn : Byte) : TableRow.Statement (.seImm x nn) :=
  (packXNN_group _ _ _).trans rfl

theorem TableRow.sneImm (x : Nibble) (nn : Byte) : TableRow.Statement (.sneImm x nn) :=
  (packXNN_group _ _ _).trans rfl

theorem TableRow.seReg (x : Nibble) (y : Nibble) (n : Nibble) : TableRow.Statement (.seReg x y n) :=
  (packXYN_group _ _ _ _).trans rfl

theorem TableRow.ldImm (x : Nibble) (nn : Byte) : TableRow.Statement (.ldImm x nn) :=
  (packXNN_group _ _ _).trans rfl

theorem TableRow.addImm (x : Nibble) (nn : Byte) : TableRow.Statement (.addImm x nn) :=
  (packXNN_group _ _ _).trans rfl

theorem TableRow.ldReg (x : Nibble) (y : Nibble) : TableRow.Statement (.ldReg x y) :=
  (packXYN_sub _ _ _ _).trans rfl

theorem TableRow.orReg (x : Nibble) (y : Nibble) : TableRow.Statement (.orReg x y) :=
  (packXYN_sub _ _ _ _).trans rfl

theorem TableRow.andReg (x : Nibble) (y : Nibble) : TableRow.Statement (.andReg x y) :=
  (packXYN_sub _ _ _ _).trans rfl

theorem TableRow.xorReg (x : Nibble) (y : Nibble) : TableRow.Statement (.xorReg x y) :=
  (packXYN_sub _ _ _ _).trans rfl

theorem TableRow.addReg (x : Nibble) (y : Nibble) : TableRow.Statement (.addReg x y) :=
  (packXYN_sub _ _ _ _).trans rfl

theorem TableRow.subReg (x : Nibble) (y : Nibble) : TableRow.Statement (.subReg x y) :=
  (packXYN_sub _ _ _ _).trans rfl

theorem TableRow.shr (x : Nibble) (y : Nibble) : TableRow.Statement (.shr x y) :=
  (packXYN_sub _ _ _ _).trans rfl

theorem TableRow.subn (x : Nibble) (y : Nibble) : TableRow.Statement (.subn x y) :=
  (packXYN_sub _ _ _ _).trans rfl

theorem TableRow.shl (x : Nibble) (y : Nibble) : TableRow.Statement (.shl x y) :=
  (packXYN_sub _ _ _ _).trans rfl

theorem TableRow.sneReg (x : Nibble) (y : Nibble) (n : Nibble) : TableRow.Statement (.sneReg x y n) :=
  (packXYN_group _ _ _ _).trans rfl

theorem TableRow.ldI (nnn : Addr12) : TableRow.Statement (.ldI nnn) :=
  (packNNN_group _ _).trans rfl

theorem TableRow.jpV0 (nnn : Addr12) : TableRow.Statement (.jpV0 nnn) :=
  (packNNN_group _ _).trans rfl

theorem TableRow.rnd (x : Nibble) (nn : Byte) : TableRow.Statement (.rnd x nn) :=
  (packXNN_group _ _ _).trans rfl

theorem TableRow.drw (x : Nibble) (y : Nibble) (n : Nibble) : TableRow.Statement (.drw x y n) :=
  (packXYN_group _ _ _ _).trans rfl

theorem TableRow.skp (x : Nibble) : TableRow.Statement (.skp x) :=
  (packXNN_sub _ _ _).trans rfl

theorem TableRow.sknp (x : Nibble) : TableRow.Statement (.sknp x) :=
  (packXNN_sub _ _ _).trans rfl

theorem TableRow.ldVxDt (x : Nibble) : TableRow.Statement (.ldVxDt x) :=
  (packXNN_sub _ _ _).trans rfl

theorem TableRow.ldVxK (x : Nibble) : TableRow.Statement (.ldVxK x) :=
  (packXNN_sub _ _ _).trans rfl

theorem TableRow.ldDtVx (x : Nibble) : TableRow.Statement (.ldDtVx x) :=
  (packXNN_sub _ _ _).trans rfl

theorem TableRow.ldStVx (x : Nibble) : TableRow.Statement (.ldStVx x) :=
  (packXNN_sub _ _ _).trans rfl

theorem TableRow.addI (x : Nibble) : TableRow.Statement (.addI x) :=
  (packXNN_sub _ _ _).trans rfl

theorem TableRow.ldF (x : Nibble) : TableRow.Statement (.ldF x) :=
  (packXNN_sub _ _ _).trans rfl

theorem TableRow.ldB (x : Nibble) : TableRow.Statement (.ldB x) :=
  (packXNN_sub _ _ _).trans rfl

theorem TableRow.ldMemVx (x : Nibble) : TableRow.Statement (.ldMemVx x) :=
  (packXNN_sub _ _ _).trans rfl

theorem TableRow.ldVxMem (x : Nibble) : TableRow.Statement (.ldVxMem x) :=
  (packXNN_sub _ _ _).trans rfl

end Sys2Proof.Laws
end

