-- ==== Sys2Proof/Tests/Slice0.lean ====
section
/-! SUPPORT. The model's own tests. Expected values come from spec/95_test_vectors.md and from the encodings written
bit by bit in the instruction rules; each test names its vector. -/

namespace Sys2Proof.Tests

open Sys2Proof.Machine

/-- A machine under another configuration. -/
def setCfg (c : Config) (s : State) : State := { s with cfg := c }

/-- One step of `s` with the word `w` at PC, seen through `f`. -/
def after {α : Type} (w : Nat) (s : State) (f : State → α) : Option α :=
  match step (s.withFetchWord 16 w) with
  | .next t => some (f t)
  | .fault _ => none
  | .refused _ => none

/-! Well-formedness: the two ill-formed SYS operands (R89), and one that is well formed. -/

theorem test_wf_sys_cls : (Instr.sys 0x0E0).wf = false := by decide
theorem test_wf_sys_ret : (Instr.sys 0x0EE).wf = false := by decide
theorem test_wf_sys : (Instr.sys 0x123).wf = true := by decide

/-! Decoding: one word for each constructor, bit 15 first, as its rule's encoding gives it. -/

/-- R143: 0123. -/
theorem test_decode_sys : decodeTableWord 16 0b0000000100100011 = some (.sys 0x123) := by decide
/-- R141: 00E0. -/
theorem test_decode_cls : decodeTableWord 16 0b0000000011100000 = some (.cls) := by decide
/-- R142: 00EE. -/
theorem test_decode_ret : decodeTableWord 16 0b0000000011101110 = some (.ret) := by decide
/-- R144: 1234. -/
theorem test_decode_jp : decodeTableWord 16 0b0001001000110100 = some (.jp 0x234) := by decide
/-- R146: 2300. -/
theorem test_decode_call : decodeTableWord 16 0b0010001100000000 = some (.call 0x300) := by decide
/-- R147: 3A05. -/
theorem test_decode_seImm : decodeTableWord 16 0b0011101000000101 = some (.seImm 0xA 0x05) := by decide
/-- R148: 4A06. -/
theorem test_decode_sneImm : decodeTableWord 16 0b0100101000000110 = some (.sneImm 0xA 0x06) := by decide
/-- R149, decode table of 95: 5AB3. -/
theorem test_decode_seReg : decodeTableWord 16 0b0101101010110011 = some (.seReg 0xA 0xB 0x3) := by decide
/-- R111: 65AB. -/
theorem test_decode_ldImm : decodeTableWord 16 0b0110010110101011 = some (.ldImm 0x5 0xAB) := by decide
/-- R112: 7302. -/
theorem test_decode_addImm : decodeTableWord 16 0b0111001100000010 = some (.addImm 0x3 0x02) := by decide
/-- R113: 8AB0. -/
theorem test_decode_ldReg : decodeTableWord 16 0b1000101010110000 = some (.ldReg 0xA 0xB) := by decide
/-- R114: 8AB1. -/
theorem test_decode_orReg : decodeTableWord 16 0b1000101010110001 = some (.orReg 0xA 0xB) := by decide
/-- R115: 8AB2. -/
theorem test_decode_andReg : decodeTableWord 16 0b1000101010110010 = some (.andReg 0xA 0xB) := by decide
/-- R116: 8AB3. -/
theorem test_decode_xorReg : decodeTableWord 16 0b1000101010110011 = some (.xorReg 0xA 0xB) := by decide
/-- R117: 8AB4. -/
theorem test_decode_addReg : decodeTableWord 16 0b1000101010110100 = some (.addReg 0xA 0xB) := by decide
/-- R118: 8AB5. -/
theorem test_decode_subReg : decodeTableWord 16 0b1000101010110101 = some (.subReg 0xA 0xB) := by decide
/-- R119, decode table of 95: 8AB6. -/
theorem test_decode_shr : decodeTableWord 16 0b1000101010110110 = some (.shr 0xA 0xB) := by decide
/-- R120: 8AB7. -/
theorem test_decode_subn : decodeTableWord 16 0b1000101010110111 = some (.subn 0xA 0xB) := by decide
/-- R121: 8ABE. -/
theorem test_decode_shl : decodeTableWord 16 0b1000101010111110 = some (.shl 0xA 0xB) := by decide
/-- R150: 9AB0. -/
theorem test_decode_sneReg : decodeTableWord 16 0b1001101010110000 = some (.sneReg 0xA 0xB 0x0) := by decide
/-- R190: A2F0. -/
theorem test_decode_ldI : decodeTableWord 16 0b1010001011110000 = some (.ldI 0x2F0) := by decide
/-- R151: BFFF. -/
theorem test_decode_jpV0 : decodeTableWord 16 0b1011111111111111 = some (.jpV0 0xFFF) := by decide
/-- R123: C10F. -/
theorem test_decode_rnd : decodeTableWord 16 0b1100000100001111 = some (.rnd 0x1 0x0F) := by decide
/-- R173, decode table of 95: D015. -/
theorem test_decode_drw : decodeTableWord 16 0b1101000000010101 = some (.drw 0x0 0x1 0x5) := by decide
/-- R201: EA9E. -/
theorem test_decode_skp : decodeTableWord 16 0b1110101010011110 = some (.skp 0xA) := by decide
/-- R202: EAA1. -/
theorem test_decode_sknp : decodeTableWord 16 0b1110101010100001 = some (.sknp 0xA) := by decide
/-- R196: F107. -/
theorem test_decode_ldVxDt : decodeTableWord 16 0b1111000100000111 = some (.ldVxDt 0x1) := by decide
/-- R204: F50A. -/
theorem test_decode_ldVxK : decodeTableWord 16 0b1111010100001010 = some (.ldVxK 0x5) := by decide
/-- R197: F315. -/
theorem test_decode_ldDtVx : decodeTableWord 16 0b1111001100010101 = some (.ldDtVx 0x3) := by decide
/-- R198: F318. -/
theorem test_decode_ldStVx : decodeTableWord 16 0b1111001100011000 = some (.ldStVx 0x3) := by decide
/-- R191: F21E. -/
theorem test_decode_addI : decodeTableWord 16 0b1111001000011110 = some (.addI 0x2) := by decide
/-- R192: F129. -/
theorem test_decode_ldF : decodeTableWord 16 0b1111000100101001 = some (.ldF 0x1) := by decide
/-- R193: F233. -/
theorem test_decode_ldB : decodeTableWord 16 0b1111001000110011 = some (.ldB 0x2) := by decide
/-- R194: F255. -/
theorem test_decode_ldMemVx : decodeTableWord 16 0b1111001001010101 = some (.ldMemVx 0x2) := by decide
/-- R195, decode table of 95: FA65. -/
theorem test_decode_ldVxMem : decodeTableWord 16 0b1111101001100101 = some (.ldVxMem 0xA) := by decide
/-- R94: the words of 95_test_vectors.md that no instruction has, and a lone byte (R80). -/
theorem test_decode_undefined : decodeWord 0x800F = .error (.group8 0x800F) ∧ decodeWord 0xE09F = .error (.groupE 0xE09F) ∧
    decodeWord 0xF0FF = .error (.groupF 0xF0FF) ∧ decodeBytes [0x12] = .error .truncated := by decide

/-! One step of each instruction. -/

/-- W3: every display byte 0xFF before (only the word at 0x200 stays listed after: its second byte). -/
theorem test_cls_zeroes : after 0x00E0 (State.reset.writeBytes 0xF00 (List.replicate 256 0xFF)) (fun t => (t.mem.length, t.readByte 0xF00, t.readByte 0xFFF, t.pc)) = some ((1, 0, 0, 0x202)) := by decide +kernel
/-- L2 control flow, R146. -/
theorem test_call_pushes : after 0x2300 State.reset (fun t => (t.pc, t.sp, t.readByte 0xEFE, t.readByte 0xEFF)) = some ((0x300, 0xEFE, 0x02, 0x02)) := by decide
/-- L2, R146. -/
theorem test_call_overflow : after 0x2300 ({ State.reset with sp := 0xEA0 } : State) (fun t => (t.pc, t.sp, t.rs, t.fr, t.status)) = some ((0x200, 0xEA0, .faulted, some ⟨.stackOverflow, 0x200, 0xEA0⟩, .fatal)) := by decide
/-- L2, R142. -/
theorem test_ret_pops : after 0x00EE (({ State.reset with sp := 0xEFE } : State).writeBytes 0xEFE [0x02, 0x46]) (fun t => (t.pc, t.sp, t.status)) = some ((0x246, 0xF00, .ok)) := by decide
/-- L2, R142. -/
theorem test_ret_underflow : after 0x00EE State.reset (fun t => (t.pc, t.fr)) = some ((0x200, some ⟨.stackUnderflow, 0x200, 0xF00⟩)) := by decide
/-- L2, R143. -/
theorem test_sys_noop : after 0x0123 State.reset (fun t => (t.pc, t.status)) = some ((0x200, .unimplemented)) := by decide
/-- L2, R143. -/
theorem test_sys_fault : after 0x0123 (setCfg { defaultConfig with undefinedWords := .fault } State.reset) (fun t => (t.fr, t.status)) = some ((some ⟨.undefinedInstruction, 0x200, 0x0123⟩, .fatal)) := by decide
/-- L2, R144. -/
theorem test_jp : after 0x1234 State.reset (fun t => (t.pc, t.status)) = some ((0x234, .ok)) := by decide
/-- L2, R145. -/
theorem test_jp_selfLoop : after 0x1200 State.reset (fun t => (t.pc, t.status)) = some ((0x200, .selfLoop)) := by decide
/-- L2, R147. -/
theorem test_seImm_equal : after 0x3005 (State.reset.setReg 0x0 5) (fun t => t.pc) = some (0x204) := by decide
/-- L2, R147. -/
theorem test_seImm_differs : after 0x3006 (State.reset.setReg 0x0 5) (fun t => t.pc) = some (0x202) := by decide
/-- L2, R148. -/
theorem test_sneImm_equal : after 0x4005 (State.reset.setReg 0x0 5) (fun t => t.pc) = some (0x202) := by decide
/-- L2, R148. -/
theorem test_sneImm_differs : after 0x4006 (State.reset.setReg 0x0 5) (fun t => t.pc) = some (0x204) := by decide
/-- L2, R149. -/
theorem test_seReg_ignores_n : after 0x501F ((State.reset.setReg 0x0 7).setReg 0x1 7) (fun t => t.pc) = some (0x204) := by decide
/-- L2, R149. -/
theorem test_seReg_differs : after 0x5010 ((State.reset.setReg 0x0 7).setReg 0x1 8) (fun t => t.pc) = some (0x202) := by decide
/-- L2, R150. -/
theorem test_sneReg_differs : after 0x9010 ((State.reset.setReg 0x0 7).setReg 0x1 8) (fun t => t.pc) = some (0x204) := by decide
/-- L2, R150: X = Y never skips. -/
theorem test_sneReg_same : after 0x9220 State.reset (fun t => t.pc) = some (0x202) := by decide
/-- L2, R151. -/
theorem test_jpV0 : after 0xB300 (State.reset.setReg 0x0 0x10) (fun t => t.pc) = some (0x310) := by decide
/-- L2, R151. -/
theorem test_jpV0_top : after 0xBFFF (State.reset.setReg 0x0 0xFF) (fun t => t.pc) = some (0x10FE) := by decide
/-- L2, R111. -/
theorem test_ldImm : after 0x65AB (State.reset.setReg 0x5 0x12) (fun t => (t.reg 5, t.pc)) = some ((0xAB, 0x202)) := by decide
/-- L2, R112. -/
theorem test_addImm_no_flag : after 0x7302 ((State.reset.setReg 0x3 0xFF).setReg 0xF 0x55) (fun t => (t.reg 3, t.reg 0xF)) = some ((0x01, 0x55)) := by decide
/-- L2, R112. -/
theorem test_addImm_VF : after 0x7F01 (State.reset.setReg 0xF 0x10) (fun t => t.reg 0xF) = some (0x11) := by decide
/-- L2, R113. -/
theorem test_ldReg : after 0x8010 (State.reset.setReg 0x1 0x42) (fun t => (t.reg 0, t.reg 1)) = some ((0x42, 0x42)) := by decide
/-- L2, R114. -/
theorem test_orReg : after 0x8011 (((State.reset.setReg 0x0 0xF0).setReg 0x1 0x0F).setReg 0xF 0x77) (fun t => (t.reg 0, t.reg 0xF)) = some ((0xFF, 0x77)) := by decide
/-- L2, R115. -/
theorem test_andReg : after 0x8012 ((State.reset.setReg 0x0 0xF0).setReg 0x1 0x3C) (fun t => t.reg 0) = some (0x30) := by decide
/-- L2, R116. -/
theorem test_xorReg : after 0x8013 ((State.reset.setReg 0x0 0xF0).setReg 0x1 0x3C) (fun t => t.reg 0) = some (0xCC) := by decide
/-- W1. -/
theorem test_addReg_exact_256 : after 0x8014 ((State.reset.setReg 0x0 0xFF).setReg 0x1 0x01) (fun t => (t.reg 0, t.reg 0xF)) = some ((0x00, 1)) := by decide
/-- L2, R117: the sum 0x05 is lost. -/
theorem test_addReg_into_VF : after 0x8F14 ((State.reset.setReg 0xF 0x10).setReg 0x1 0xF5) (fun t => t.reg 0xF) = some (1) := by decide
/-- W2. -/
theorem test_subReg_borrow : after 0x8015 ((State.reset.setReg 0x0 0x03).setReg 0x1 0x05) (fun t => (t.reg 0, t.reg 0xF)) = some ((0xFE, 0)) := by decide
/-- L2, R118: X = Y. -/
theorem test_subReg_same : after 0x8005 (State.reset.setReg 0x0 0x07) (fun t => (t.reg 0, t.reg 0xF)) = some ((0x00, 1)) := by decide
/-- L2, R119. -/
theorem test_shr_vx : after 0x8016 ((State.reset.setReg 0x0 0x05).setReg 0x1 0xFF) (fun t => (t.reg 0, t.reg 0xF)) = some ((0x02, 1)) := by decide
/-- L2, R119 under P_SHIFT_SOURCE = VY. -/
theorem test_shr_vy : after 0x8016 (setCfg { defaultConfig with shiftSource := .vy } ((State.reset.setReg 0x0 0x05).setReg 0x1 0xFF)) (fun t => (t.reg 0, t.reg 1, t.reg 0xF)) = some ((0x7F, 0xFF, 1)) := by decide
/-- L2, R120. -/
theorem test_subn : after 0x8017 ((State.reset.setReg 0x0 0x03).setReg 0x1 0x05) (fun t => (t.reg 0, t.reg 0xF)) = some ((0x02, 1)) := by decide
/-- L2, R120. -/
theorem test_subn_borrow : after 0x8017 ((State.reset.setReg 0x0 0x05).setReg 0x1 0x03) (fun t => (t.reg 0, t.reg 0xF)) = some ((0xFE, 0)) := by decide
/-- L2, R121: X = Y = F, the result is overwritten. -/
theorem test_shl_raw : after 0x8FFE (State.reset.setReg 0xF 0x80) (fun t => t.reg 0xF) = some (0x80) := by decide
/-- L2, R121. -/
theorem test_shl_normalized : after 0x800E (setCfg { defaultConfig with shlFlag := .normalized } (State.reset.setReg 0x0 0x81)) (fun t => (t.reg 0, t.reg 0xF)) = some ((0x02, 0x01)) := by decide
/-- L2, R171, R173. -/
theorem test_drw_splits_bytes : after 0xD011 ((((State.reset.setReg 0 3).setReg 1 0).setI 0x300).writeBytes 0x300 [0xFF]) (fun t => (displayByte t 0, displayByte t 1, t.reg 0xF, t.i)) = some ((0x1F, 0xE0, 0, 0x300)) := by decide
/-- L2, R173. -/
theorem test_drw_clips_column : after 0xD011 ((((State.reset.setReg 0 60).setReg 1 0).setI 0x300).writeBytes 0x300 [0xFF]) (fun t => (displayByte t 7, displayByte t 8)) = some ((0x0F, 0)) := by decide
/-- L2, R190. -/
theorem test_ldI : after 0xA2F0 State.reset (fun t => (t.i, t.pc)) = some ((0x2F0, 0x202)) := by decide
/-- L2, R191. -/
theorem test_addI_no_flag : after 0xF01E (((State.reset.setReg 0x0 0x01).setReg 0xF 0x33).setI 0xFFF) (fun t => (t.i, t.reg 0xF)) = some ((0x1000, 0x33)) := by decide
/-- L2, R191. -/
theorem test_addI_wraps : after 0xF01E ((State.reset.setReg 0x0 0x01).setI 0xFFFF) (fun t => t.i) = some (0x0000) := by decide
/-- L2, R192. -/
theorem test_ldF_full_byte : after 0xF029 (State.reset.setReg 0x0 0xFF) (fun t => t.i) = some (0x4FB) := by decide
/-- L2, R192. -/
theorem test_ldF_glyph : after 0xF029 (State.reset.setReg 0x0 0x0A) (fun t => t.i) = some (0x032) := by decide
/-- L2, R193. -/
theorem test_ldB : after 0xF033 ((State.reset.setReg 0x0 0xFE).setI 0x300) (fun t => (t.readByte 0x300, t.readByte 0x301, t.readByte 0x302, t.i)) = some ((2, 5, 4, 0x300)) := by decide
/-- L2, R193, R60. -/
theorem test_ldB_font : after 0xF033 (State.reset.setI 0x04E) (fun t => (t.fr, t.pc)) = some ((some ⟨.fontWrite, 0x200, 0x04E⟩, 0x200)) := by decide
/-- L2, R194. -/
theorem test_ldMemVx_highest : after 0xFF55 (((State.reset.setReg 0x0 0x11).setReg 0xF 0x99).setI 0xFF0) (fun t => (t.readByte 0xFF0, t.readByte 0xFFF, t.i)) = some ((0x11, 0x99, 0x1000)) := by decide
/-- L2, R194. -/
theorem test_ldMemVx_beyond : after 0xFF55 (State.reset.setI 0xFF1) (fun t => (t.fr, t.i)) = some ((some ⟨.writeOutOfRange, 0x200, 0x1000⟩, 0xFF1)) := by decide
/-- L2, R195. -/
theorem test_ldVxMem_font : after 0xF465 State.reset (fun t => (t.reg 0, t.reg 1, t.reg 4, t.i)) = some ((0xF0, 0x90, 0xF0, 0x005)) := by decide
/-- L2, R195. -/
theorem test_ldVxMem_beyond : after 0xF265 (State.reset.setI 0xFFE) (fun t => (t.fr, t.reg 0)) = some ((some ⟨.readOutOfRange, 0x200, 0x1000⟩, 0)) := by decide
/-- L2, R196. -/
theorem test_ldVxDt_after : after 0xF107 ({ State.reset with dt := 5 } : State) (fun t => (t.reg 1, t.dt)) = some ((5, 4)) := by decide
/-- L2, R196. -/
theorem test_ldVxDt_before : after 0xF107 (setCfg { defaultConfig with timerPhase := .beforeExecute } { State.reset with dt := 5 }) (fun t => (t.reg 1, t.dt)) = some ((4, 4)) := by decide
/-- L2, R197. -/
theorem test_ldDtVx_after : after 0xF015 (State.reset.setReg 0x0 0x10) (fun t => t.dt) = some (0x0F) := by decide
/-- L2, R197. -/
theorem test_ldDtVx_before : after 0xF015 (setCfg { defaultConfig with timerPhase := .beforeExecute } (State.reset.setReg 0x0 0x03)) (fun t => t.dt) = some (0x03) := by decide
/-- L2, R198. -/
theorem test_ldStVx : after 0xF018 (State.reset.setReg 0x0 0x10) (fun t => t.st) = some (0x0F) := by decide
/-- L2, R198. -/
theorem test_ldStVx_one : after 0xF018 (State.reset.setReg 0x0 0x01) (fun t => t.st) = some (0x00) := by decide
/-- L2, R201. -/
theorem test_skp_pressed : after 0xE09E (keySet 5 true (State.reset.setReg 0x0 5)) (fun t => t.pc) = some (0x204) := by decide
/-- L2, R203. -/
theorem test_skp_index : after 0xE09E (State.reset.setReg 0x0 0x10) (fun t => (t.fr, t.pc)) = some ((some ⟨.keyIndexOutOfRange, 0x200, 0x10⟩, 0x200)) := by decide
/-- L2, R202. -/
theorem test_sknp_pressed : after 0xE0A1 (keySet 5 true (State.reset.setReg 0x0 5)) (fun t => t.pc) = some (0x202) := by decide
/-- L2, R202. -/
theorem test_sknp_released : after 0xE0A1 (State.reset.setReg 0x0 5) (fun t => t.pc) = some (0x204) := by decide
/-- L2, R204. -/
theorem test_ldVxK_takes_least : after 0xF50A ((keySet 3 true (keySet 7 true State.reset)).setAw true) (fun t => (t.reg 5, t.aw, t.pc)) = some ((3, false, 0x202)) := by decide
/-- L2, R204. -/
theorem test_ldVxK_arms : after 0xF50A (keySet 3 true State.reset) (fun t => (t.aw, t.pc, t.reg 5, t.status)) = some ((true, 0x200, 0, .waiting)) := by decide
/-- L2, R123: rand8 = 0xAB, masked by 0x0F. -/
theorem test_rnd (h : Config.rand8 0 = 0xAB) : after 0xC00F State.reset (fun t => t.reg 0) = some 0x0B := by
  have e : after 0xC00F State.reset (fun t => t.reg 0) = some (Config.rand8 0 &&& 0x0F) := by rfl
  rw [e, h]; decide

/-! Undefined words, faults, and the parameters' other values. -/

/-- L2 undefined words, R94 b, R122. -/
theorem test_undefined_group8 : after 0x8008 ({ State.reset with dt := 3 } : State) (fun t => (t.pc, t.status, t.dt)) = some ((0x202, .unimplemented, 2)) := by decide
/-- L2 undefined words, R94 d. -/
theorem test_undefined_groupF : after 0xF0FF State.reset (fun t => (t.pc, t.status)) = some ((0x200, .unimplemented)) := by decide
/-- L2 undefined words, R236. -/
theorem test_undefined_before_checks : after 0xF0FF (setCfg { defaultConfig with undefinedWords := .fault } (State.reset.setI 0xFFE)) (fun t => t.fr) = some (some ⟨.undefinedInstruction, 0x200, 0xF0FF⟩) := by decide
/-- L2, R231. -/
theorem test_fatal_no_tick : after 0xF033 ({ State.reset with dt := 3, i := 0xFFE } : State) (fun t => (t.dt, t.fr)) = some ((3, some ⟨.writeOutOfRange, 0x200, 0x1000⟩)) := by decide
/-- L2, R233. -/
theorem test_faulted_idle : after 0x6001 ({ State.reset with rs := .faulted, dt := 3 } : State) (fun t => (t.dt, t.pc, t.reg 0, t.status)) = some ((3, 0x200, 0, .fatal)) := by decide
/-- L2 display, R174. -/
theorem test_drw_wrap : after 0xD015 (setCfg { defaultConfig with vertical := .wrap } ((((State.reset.setReg 0 0).setReg 1 30).setI 0x300).writeBytes 0x300 [0x81, 0x81, 0x81, 0x81, 0x81])) (fun t => (displayByte t 240, displayByte t 248, displayByte t 0, displayByte t 16, displayByte t 24)) = some ((0x81, 0x81, 0x81, 0x81, 0)) := by decide
/-- L2 display, R174. -/
theorem test_drw_fault : after 0xD015 (setCfg { defaultConfig with vertical := .fault } ((((State.reset.setReg 0 0).setReg 1 30).setI 0x300).writeBytes 0x300 [0x81, 0x81, 0x81, 0x81, 0x81])) (fun t => t.fr) = some (some ⟨.spriteRowOutOfRange, 0x200, 32⟩) := by decide
/-- L2 display, R174. -/
theorem test_drw_unchecked : after 0xD015 (setCfg { defaultConfig with vertical := .unchecked } ((((State.reset.setReg 0 0).setReg 1 30).setI 0x300).writeBytes 0x300 [0x81, 0x81, 0x81, 0x81, 0x81])) (fun t => t.fr) = some (some ⟨.writeOutOfRange, 0x200, 0x1000⟩) := by decide
/-- L2 display, R175. -/
theorem test_drw_collision : after 0xD011 (((((State.reset.setReg 0 0).setReg 1 0).setI 0x300).writeBytes 0x300 [0xC0]).writeByte 0xF00 0x40) (fun t => (displayByte t 0, t.reg 0xF)) = some ((0x80, 1)) := by decide
/-- L2 display, R176. -/
theorem test_drw_own_source : after 0xD011 ((((State.reset.setReg 0 1).setReg 1 0).setI 0xF00).writeByte 0xF00 0x80) (fun t => (displayByte t 0, t.reg 0xF)) = some ((0xC0, 0)) := by decide
/-- L2, R60: the two glyph bytes F0 80 F0 80 80 end with 80 80. -/
theorem test_ldB_ignore : after 0xF033 (setCfg { defaultConfig with fontWrite := .ignore } ((State.reset.setReg 0x0 0x7B).setI 0x04E)) (fun t => (t.readByte 0x04E, t.readByte 0x04F, t.readByte 0x050)) = some ((0x80, 0x80, 3)) := by decide
/-- L2, R203. -/
theorem test_skp_lowNibble : after 0xE09E (keySet 5 true (setCfg { defaultConfig with keyIndex := .lowNibble } (State.reset.setReg 0x0 0x15))) (fun t => t.pc) = some (0x204) := by decide
/-- L2 next-step fetch faults, R81: PC = 0xFFF and PC = 0x10FE. -/
theorem test_fetch_faults : (fetchAndExecute { State.reset with pc := 0xFFF } = .next (State.raiseFatal { State.reset with pc := 0xFFF } .fetchOutOfRange 0x1000)) ∧
    (fetchAndExecute { State.reset with pc := 0x10FE } = .next (State.raiseFatal { State.reset with pc := 0x10FE } .fetchOutOfRange 0x10FE)) :=
  ⟨rfl, rfl⟩
/-- R37: the first and the last glyph byte, and the byte after the table. -/
theorem test_font : (State.reset.readByte 0x000, State.reset.readByte 0x04B, State.reset.readByte 0x04F, State.reset.readByte 0x050) = (0xF0, 0xF0, 0x80, 0) := by decide
/-- R263: an image that is too long is refused by name. -/
theorem test_image_too_long : loadImage (List.replicate 3585 0) State.reset = .refused .imageTooLong := by
  rw [loadImage, if_pos (by rw [List.length_replicate]; decide)]

end Sys2Proof.Tests
end

