-- ==== Sys2Proof/Tests/Witnesses.lean ====
section
/-! SUPPORT. For every statement with hypotheses a concrete state and operands that meet them together, clause by clause,
at the boundary values of the clauses. -/

namespace Sys2Proof.Tests

open Sys2Proof.Machine Sys2Proof.Claims

/-- The reset state under another configuration. -/
def under (c : Config) : State := { State.reset with cfg := c }

/-- `s` with the word `w` where the next step fetches it. -/
def placed (w : Word) (s : State) : State := placeWord s w

/-- How an outcome ends: `some none` completes, `some (some c)` takes the Fatal `c`, `none` is no next state. -/
def ends (r : Result) : Option (Option Cause) :=
  match r with
  | .next t => some (t.fr.map (·.cause))
  | .fault _ => none
  | .refused _ => none

/-- The configuration with P_UNDEFINED = FAULT. -/
def strict : Config := { defaultConfig with undefinedWords := .fault }

/-- The configuration with P_TIMER_PHASE = BEFORE_EXECUTE. -/
def early : Config := { defaultConfig with timerPhase := .beforeExecute }

/-- A configuration with a value of P_VERTICAL. -/
def rows (v : Vertical) : Config := { defaultConfig with vertical := v }

/-- A machine with a call stack beyond what R26 allows: CALL is the one instruction that can answer a model fault there. -/
def beyond : State := { State.reset with sp := 0x1002 }

/-- The reset machine after a Fatal. -/
def dead : State := State.reset.raiseFatal .stackUnderflow 0xF00

/-! Decoding and the step. -/

theorem witness_DecodeOfEncode : (Instr.sys 0xFFF).wf = true ∧ (Instr.drw 0xF 0xF 0xF).wf = true := by decide

theorem witness_Fetches_first : Fetches (placed 0x65AB State.reset) 0x65AB := ⟨rfl, by decide, by decide⟩

theorem witness_Fetches_highest : Fetches (placed 0xFA65 { State.reset with pc := 0xFFE }) 0xFA65 :=
  ⟨rfl, by decide, by decide⟩

/-- The clause of a completing instruction, under both phases. -/
theorem witness_StepRuns_completes : decodeWord 0x65AB = .ok (.ldImm 0x5 0xAB) ∧
    ends (exec (.ldImm 0x5 0xAB) (placed 0x65AB State.reset)) = some none ∧
    Fetches (placed 0x65AB (under early)) 0x65AB ∧
    ends (exec (.ldImm 0x5 0xAB) (placed 0x65AB (under early))) = some none :=
  ⟨rfl, by decide, ⟨rfl, by decide, by decide⟩, by decide⟩

/-- The clause of a Fatal. -/
theorem witness_StepRuns_fatal : Fetches (placed 0x00EE State.reset) 0x00EE ∧ decodeWord 0x00EE = .ok .ret ∧
    ends (exec .ret (placed 0x00EE State.reset)) = some (some .stackUnderflow) :=
  ⟨⟨rfl, by decide, by decide⟩, rfl, by decide⟩

/-- The clause of a fault of the model. -/
theorem witness_StepRuns_fault : Fetches (placed 0x2300 beyond) 0x2300 ∧ decodeWord 0x2300 = .ok (.call 0x300) ∧
    exec (.call 0x300) (placed 0x2300 beyond) = .fault .stackOutsideMemory :=
  ⟨⟨rfl, by decide, by decide⟩, rfl, rfl⟩

theorem witness_FetchOutOfRange : State.reset.rs = .running ∧ 0xFFE < (0x0FFF : Word).toNat ∧
    ends (step { State.reset with pc := 0x0FFF }) = some (some .fetchOutOfRange) ∧
    ends (step { State.reset with pc := 0x1000 }) = some (some .fetchOutOfRange) ∧
    ends (step { State.reset with pc := 0x0FFE }) = some none := by decide

theorem witness_Unimplemented_sys : Fetches (placed 0x0123 State.reset) 0x0123 ∧ decodeWord 0x0123 = .ok (.sys 0x123) ∧
    State.reset.cfg.undefinedWords = .noop := ⟨⟨rfl, by decide, by decide⟩, rfl, rfl⟩

theorem witness_Unimplemented_group8 : Fetches (placed 0x8008 State.reset) 0x8008 ∧
    decodeWord 0x8008 = .error (.group8 0x8008) := ⟨⟨rfl, by decide, by decide⟩, rfl⟩

theorem witness_Unimplemented_fault : Fetches (placed 0xF0FF (under strict)) 0xF0FF ∧
    decodeWord 0xF0FF = .error (.groupF 0xF0FF) ∧ (under strict).cfg.undefinedWords = .fault :=
  ⟨⟨rfl, by decide, by decide⟩, rfl, rfl⟩

/-! Single instructions. -/

theorem witness_EachRnd_rnd : ∃ t, exec (.rnd 0x1 0x0F) State.reset = .next t := ⟨_, rfl⟩

theorem witness_EachRnd_other : (∀ x nn, Instr.ldI 0x300 ≠ .rnd x nn) ∧ ends (exec (.ldI 0x300) State.reset) = some none :=
  ⟨fun _ _ h => (nomatch h), by decide⟩

/-- The hypothesis of CLS, FX33, FX55, DXYN and CALL. -/
theorem witness_memory_wf : Memory.wf State.reset.mem ∧ Memory.wf (State.reset.writeByte 0x300 0x80).mem := by decide

/-- RET's two clauses where they meet. -/
theorem witness_RetReturns : ends (exec .ret { State.reset with sp := 0xEFE }) = some none ∧
    ends (exec .ret { State.reset with sp := 0xEFF }) = some (some .stackUnderflow) := by decide

theorem witness_Sys : (0x0FFF : Word).toNat ≤ 0x0FFF ∧ (0x0FFF : Word) ≠ 0x00E0 ∧ (0x0FFF : Word) ≠ 0x00EE ∧
    ends (exec (.sys 0xFFF) State.reset) = some none ∧
    ends (exec (.sys 0xFFF) (under strict)) = some (some .undefinedInstruction) := by decide

theorem witness_SelfLoop_jump : Fetches (placed 0x1200 State.reset) (wordNNN 0x1000 0x200) ∧
    (0x200 : Addr12).toNat = State.reset.pc.toNat := ⟨⟨rfl, by decide, by decide⟩, by decide⟩

theorem witness_SelfLoop_reported : ∃ t, step (placed 0x1200 State.reset) = .next t ∧ t.status = .selfLoop :=
  ⟨_, rfl, by decide⟩

/-- CALL's two clauses where they meet, and the full range of SP. -/
theorem witness_CallCalls : State.reset.sp.toNat ≤ State.reset.cfg.stackTop ∧
    ends (exec (.call 0x300) State.reset) = some none ∧
    ends (exec (.call 0x300) { State.reset with sp := 0xEA2 }) = some none ∧
    ends (exec (.call 0x300) { State.reset with sp := 0xEA1 }) = some (some .stackOverflow) ∧
    ends (exec (.call 0x300) { State.reset with sp := 0xEA0 }) = some (some .stackOverflow) := by decide

theorem witness_CallThenReturn : State.reset.Inv ∧ State.reset.rs = .running ∧
    ∃ t, exec (.call 0x300) State.reset = .next t ∧ t.rs = .running := ⟨by decide, rfl, _, rfl, rfl⟩

/-- FX33's three clauses where they meet. -/
theorem witness_LdB : ends (exec (.ldB 0) (State.reset.setI 0xFFD)) = some none ∧
    ends (exec (.ldB 0) (State.reset.setI 0xFFE)) = some (some .writeOutOfRange) ∧
    ends (exec (.ldB 0) (State.reset.setI 0x050)) = some none ∧
    ends (exec (.ldB 0) (State.reset.setI 0x04F)) = some (some .fontWrite) ∧
    ends (exec (.ldB 0) ((under { defaultConfig with fontWrite := .ignore }).setI 0x04F)) = some none ∧
    ends (exec (.ldB 0) ((under { defaultConfig with fontWrite := .store }).setI 0x04F)) = some none := by decide

/-- FX55's three clauses where they meet. -/
theorem witness_LdMemVx : ends (exec (.ldMemVx 0xF) (State.reset.setI 0xFF0)) = some none ∧
    ends (exec (.ldMemVx 0xF) (State.reset.setI 0xFF1)) = some (some .writeOutOfRange) ∧
    ends (exec (.ldMemVx 0x0) (State.reset.setI 0x050)) = some none ∧
    ends (exec (.ldMemVx 0x0) (State.reset.setI 0x04F)) = some (some .fontWrite) ∧
    ends (exec (.ldMemVx 0x0) ((under { defaultConfig with fontWrite := .ignore }).setI 0x04F)) = some none := by decide

/-- FX65's two clauses where they meet. -/
theorem witness_LdVxMem : ends (exec (.ldVxMem 0xF) (State.reset.setI 0xFF0)) = some none ∧
    ends (exec (.ldVxMem 0xF) (State.reset.setI 0xFF1)) = some (some .readOutOfRange) := by decide

/-- The step clauses of FX07, FX15 and FX18, under both phases. -/
theorem witness_timer_words : Fetches (placed 0xF107 State.reset) (wordX 0xF007 0x1) ∧
    Fetches (placed 0xF107 (under early)) (wordX 0xF007 0x1) ∧ Fetches (placed 0xF115 State.reset) (wordX 0xF015 0x1) ∧
    Fetches (placed 0xF115 (under early)) (wordX 0xF015 0x1) ∧ Fetches (placed 0xF118 State.reset) (wordX 0xF018 0x1) ∧
    Fetches (placed 0xF118 (under early)) (wordX 0xF018 0x1) :=
  ⟨⟨rfl, by decide, by decide⟩, ⟨rfl, by decide, by decide⟩, ⟨rfl, by decide, by decide⟩, ⟨rfl, by decide, by decide⟩,
    ⟨rfl, by decide, by decide⟩, ⟨rfl, by decide, by decide⟩⟩

theorem witness_TimersTick_running : (∀ x, decodeWord 0x65AB ≠ .ok (.ldDtVx x)) ∧
    (∀ x, decodeWord 0x65AB ≠ .ok (.ldStVx x)) ∧ ∃ t, step (placed 0x65AB State.reset) = .next t ∧ t.rs = .running :=
  ⟨fun x h => (nomatch (show Except.ok (.ldImm 0x5 0xAB) = Except.ok (Instr.ldDtVx x) from h)),
    fun x h => (nomatch (show Except.ok (.ldImm 0x5 0xAB) = Except.ok (Instr.ldStVx x) from h)), _, rfl, by decide⟩

theorem witness_TimersTick_faulted : ∃ t, step (placed 0x00EE State.reset) = .next t ∧ t.rs = .faulted :=
  ⟨_, rfl, by decide⟩

/-- The key index's clauses where they meet, for EX9E and EXA1. -/
theorem witness_keyIndex : ¬ BadKeyIndex defaultConfig 0x0F ∧ BadKeyIndex defaultConfig 0x10 ∧
    ¬ BadKeyIndex { defaultConfig with keyIndex := .lowNibble } 0xFF :=
  ⟨fun h => absurd h.1 (by decide), ⟨by decide, rfl⟩, fun h => nomatch h.2⟩

/-- FX0A's three clauses, with the least and the greatest key. -/
theorem witness_LdVxK : State.reset.aw = false ∧ (State.reset.setAw true).aw = true ∧
    (∀ k, (State.reset.setAw true).key k = false) ∧
    (keySet 0x0 true (State.reset.setAw true)).key 0x0 = true ∧
    (keySet 0xF true (State.reset.setAw true)).key 0xF = true ∧
    (∀ j : Nibble, j.toNat < (0xF : Nibble).toNat → (keySet 0xF true (State.reset.setAw true)).key j = false) := by
  decide

/-! DXYN. -/

/-- The read check where it meets the draw. -/
theorem witness_Drw_read : DrwReadFault (State.reset.setI 0xFFF) 2 ∧ DrwReadFault (State.reset.setI 0x1000) 1 ∧
    ¬ DrwReadFault (State.reset.setI 0xFFF) 1 ∧ ¬ DrwReadFault (State.reset.setI 0xFFFF) 0 :=
  ⟨⟨by decide, by decide⟩, ⟨by decide, by decide⟩, fun h => absurd h.2 (by decide), fun h => absurd h.1 (by decide)⟩

/-- The row check where it meets the draw. -/
theorem witness_Drw_row : DrwRowFault (under (rows .fault)) 31 2 ∧ DrwRowFault (under (rows .fault)) 255 1 ∧
    ¬ DrwRowFault (under (rows .fault)) 31 1 ∧ ¬ DrwRowFault State.reset 31 2 :=
  ⟨⟨rfl, by decide, by decide⟩, ⟨rfl, by decide, by decide⟩, fun h => absurd h.2.2 (by decide), fun h => nomatch h.1⟩

/-- The write check: the second row of a draw at row 31 is the first beyond memory. -/
theorem witness_Drw_write : DrwWriteFault (under (rows .unchecked)) 0 31 2 1 0 ∧
    ∀ r c, ¬ DrwWriteFault (under (rows .unchecked)) 0 31 1 r c := by
  refine ⟨⟨rfl, by decide, by decide, by decide, by decide, fun r' c' hc hx h => ?_⟩, fun r c h => ?_⟩
  · have : drwTarget (under (rows .unchecked)) 0 31 r' c' = 0xF00 + 8 * (31 + r') + (0 + c') / 8 := rfl
    omega
  · have : drwTarget (under (rows .unchecked)) 0 31 r c = 0xF00 + 8 * (31 + r) + (0 + c) / 8 := rfl
    have h1 := h.2.1; have h2 := h.2.2.1; have h3 := h.2.2.2.2.1
    omega

/-- The draw, with rows inside the screen, clipped, wrapped, and beyond the display. -/
theorem witness_Drw_lands : Lands defaultConfig 31 0 31 ∧ (∀ y, ¬ Lands defaultConfig 31 1 y) ∧
    Lands (rows .wrap) 31 1 0 ∧ Lands (rows .unchecked) 31 1 32 := by
  refine ⟨.inl ⟨by decide, rfl⟩, fun y h => ?_, .inr ⟨by decide, .inl ⟨rfl, rfl⟩⟩, .inr ⟨by decide, .inr ⟨rfl, rfl⟩⟩⟩
  rcases h with ⟨h, -⟩ | ⟨-, ⟨h, -⟩ | ⟨h, -⟩⟩
  · exact absurd h (by decide)
  · exact nomatch h
  · exact nomatch h

theorem witness_Drw_draws : ¬ DrwReadFault (State.reset.setI 0x300) 1 ∧ ¬ DrwRowFault State.reset 0 1 ∧
    (∀ r c, ¬ DrwWriteFault State.reset 0 0 1 r c) ∧
    ends (exec (.drw 0 1 1) (State.reset.setI 0x300)) = some none :=
  ⟨fun h => absurd h.2 (by decide), fun h => (nomatch h.1), fun _ _ h => (nomatch h.1), by decide⟩

theorem witness_Drw_collides : Collides (State.reset.writeByte 0xF00 0x01) 0 0 1 (fun _ => 0x01) ∧
    ¬ Collides (State.reset.writeByte 0xF00 0x01) 0 0 1 (fun _ => 0x00) :=
  ⟨⟨0, 7, 0, by decide, by decide, .inl ⟨by decide, rfl⟩, by decide, by decide, by decide⟩,
    fun ⟨_, _, _, _, _, _, _, h, _⟩ => by simp at h⟩

/-- A sprite of one lit pixel: the first draw lights it. -/
theorem witness_DrawingTwice_lit :
    (∀ r < (1 : Nibble).toNat, ¬ mayWrite (.drw 0 1 1) ((State.reset.setI 0x300).writeByte 0x300 0x80) (0x300 + r)) ∧
    ∃ t, exec (.drw 0 1 1) ((State.reset.setI 0x300).writeByte 0x300 0x80) = .next t ∧ t.rs = .running ∧
      pixel ((State.reset.setI 0x300).writeByte 0x300 0x80) 0 0 = false ∧ pixel t 0 0 = true := by
  refine ⟨fun r hr => ?_, _, rfl, by decide, by decide, by decide⟩
  rintro ⟨r', c', z, -, -, -, -, h⟩
  have h : 0x300 + r = 0xF00 + 8 * z + (0 + c') / 8 := h
  have : r < 1 := hr
  omega

/-- A sprite of no row: the first draw lights nothing. -/
theorem witness_DrawingTwice_unlit : ∃ t, exec (.drw 0 1 0) State.reset = .next t ∧ t.rs = .running ∧
    ∀ px z, px < 64 → pixel State.reset px z = false → pixel t px z = false := ⟨_, rfl, by decide, fun _ _ _ h => h⟩

/-! The whole machine. -/

/-- The hypotheses of FatalIsPrecise and DefaultCausesAreOneToSeven. -/
theorem witness_fatal_step : State.reset.cfg = defaultConfig ∧ State.reset.rs = .running ∧
    ∃ t, step (placed 0x00EE State.reset) = .next t ∧ t.rs = .faulted := ⟨rfl, rfl, _, rfl, by decide⟩

theorem witness_FaultedMachine : dead.rs = .faulted ∧
    ∃ t, hostStep .reset dead = .next t ∧ t.rs = .running := ⟨rfl, _, rfl, by decide⟩

theorem witness_UnreadRegisters : (0x2 : Nibble) ∉ readsRegs defaultConfig (.addReg 0x0 0x1) ∧
    (0x2 : Nibble) ∉ writesRegs (.addReg 0x0 0x1) ∧ ends (exec (.addReg 0x0 0x1) State.reset) = some none := by decide

/-- The two addresses beside the three bytes of FX33, beside the record of CALL, and one of a register instruction. -/
theorem witness_MemoryWrites : State.reset.Inv ∧ (State.reset.setI 0x300).Inv ∧
    ¬ mayWrite (.ldB 0) (State.reset.setI 0x300) 0x2FF ∧ ¬ mayWrite (.ldB 0) (State.reset.setI 0x300) 0x303 ∧
    ¬ mayWrite (.call 0x300) State.reset 0xEFD ∧ ¬ mayWrite (.call 0x300) State.reset 0xF00 ∧
    ¬ mayWrite (.ldI 0x300) State.reset 0x200 := by
  refine ⟨by decide, by decide, fun h => absurd h.1 (by decide), fun h => absurd h.2 (by decide),
    fun h => absurd h.1 (by decide), fun h => absurd h.2 (by decide), fun h => h⟩

/-- Each writer of the special registers does write. -/
theorem witness_SpecialWriters : (∃ t, exec (.ldI 0x300) State.reset = .next t ∧ t.i ≠ State.reset.i) ∧
    (∃ t, exec (.call 0x300) State.reset = .next t ∧ t.sp ≠ State.reset.sp) ∧
    (∃ t, exec (.ldDtVx 0x1) (State.reset.setReg 0x1 1) = .next t ∧ t.dt ≠ State.reset.dt) ∧
    (∃ t, exec (.ldStVx 0x1) (State.reset.setReg 0x1 1) = .next t ∧ t.st ≠ State.reset.st) ∧
    (∃ t, exec (.ldVxK 0x1) State.reset = .next t ∧ t.aw ≠ State.reset.aw) :=
  ⟨⟨_, rfl, by decide⟩, ⟨_, rfl, by decide⟩, ⟨_, rfl, by decide⟩, ⟨_, rfl, by decide⟩, ⟨_, rfl, by decide⟩⟩

theorem witness_GlyphTable : State.reset.Inv ∧ State.reset.cfg.fontWrite ≠ .store ∧
    (under { defaultConfig with fontWrite := .ignore }).Inv ∧ ends (step State.reset) = some none := by decide

/-- The hypotheses of StepKeepsInvariant and EveryStepAnswers, in a running and in a faulted machine. -/
theorem witness_Invariant : State.reset.Inv ∧ dead.Inv ∧ ends (step State.reset) = some none ∧
    ends (step dead) = some (some .stackUnderflow) := by decide

theorem witness_HostEvents : (∃ t, hostStep (.keySet 0xF true) State.reset = .next t) ∧
    (∃ t, hostStep (.load 0xFFF 0xAA) State.reset = .next t) ∧ (∃ t, hostStep .reset dead = .next t) ∧
    (∃ t, hostStep .step State.reset = .next t) := ⟨⟨_, rfl⟩, ⟨_, rfl⟩, ⟨_, rfl⟩, ⟨_, rfl⟩⟩

end Sys2Proof.Tests
end

section
/-! The parameters of 00_scope.md R7: the bounds every configuration record carries, the glyph bytes of the default font
(R37), and O2. -/

namespace Sys2Proof.Proofs

open Sys2Proof.Machine

/-- R7's domain of P_DISPLAY_BASE. -/
theorem displayBase_in_domain (c : Config) : 0x050 ≤ c.displayBase ∧ c.displayBase + 0x100 ≤ 0x1000 :=
  c.domain.1

/-- R7's domain of P_STACK_BOTTOM, which P_STACK_TOP bounds above. -/
theorem stackBottom_in_domain (c : Config) :
    c.stackBottom % 2 = 0 ∧ 0x050 ≤ c.stackBottom ∧ c.stackBottom < c.stackTop :=
  c.domain.2.1

/-- R7's domain of P_STACK_TOP; the region is a whole number of two-byte records. -/
theorem stackTop_in_domain (c : Config) : c.stackTop ≤ 0x1000 ∧ (c.stackTop - c.stackBottom) % 2 = 0 :=
  c.domain.2.2

/-- The glyphs of the digits 0 to F in order (R37). -/
theorem defaultFont_toList : defaultFont.toList =
    [0xF0, 0x90, 0x90, 0x90, 0xF0] ++ [0x20, 0x60, 0x20, 0x20, 0x70] ++ [0xF0, 0x10, 0xF0, 0x80, 0xF0] ++
    [0xF0, 0x10, 0xF0, 0x10, 0xF0] ++ [0x90, 0x90, 0xF0, 0x10, 0x10] ++ [0xF0, 0x80, 0xF0, 0x10, 0xF0] ++
    [0xF0, 0x80, 0xF0, 0x90, 0xF0] ++ [0xF0, 0x10, 0x20, 0x40, 0x40] ++ [0xF0, 0x90, 0xF0, 0x90, 0xF0] ++
    [0xF0, 0x90, 0xF0, 0x10, 0xF0] ++ [0xF0, 0x90, 0xF0, 0x90, 0x90] ++ [0xE0, 0x90, 0xE0, 0x90, 0xE0] ++
    [0xF0, 0x80, 0x80, 0x80, 0xF0] ++ [0xE0, 0x90, 0x90, 0x90, 0xE0] ++ [0xF0, 0x80, 0xF0, 0x80, 0xF0] ++
    [0xF0, 0x80, 0xF0, 0x80, 0x80] := rfl

/-- Settles O2: the default record is read off field by field, and the domain is what each record carries (R7, R37). -/
theorem parameterDefaultsAndDomains : Obligations.ParameterDefaultsAndDomains := by
  refine ⟨⟨rfl, rfl, rfl, rfl, rfl, rfl, rfl, rfl, rfl, rfl, defaultFont_toList⟩, fun c => ?_⟩
  obtain ⟨baseLow, baseHigh⟩ := displayBase_in_domain c
  obtain ⟨bottomEven, bottomLow, bottomBelowTop⟩ := stackBottom_in_domain c
  obtain ⟨topHigh, sizeEven⟩ := stackTop_in_domain c
  exact ⟨baseLow, baseHigh, bottomEven, bottomLow, bottomBelowTop, topHigh, sizeEven⟩

end Sys2Proof.Proofs
end

section
/-! What one instruction leaves alone, said once for all 35: the registers outside R22's table, the special registers
outside R25 to R29, memory where R51 lists no write, and the rest of the system (R30). O52 and O55 are read off it. -/

namespace Sys2Proof.Proofs

open Sys2Proof.Machine Sys2Proof.Claims Sys2Proof.Laws

/-- The parts of the state, beside V, that some instruction writes (R25, R26, R27, R29, R50). -/
inductive Special where
  | index | stackPointer | delayTimer | soundTimer | awaitingKey | memory

/-- The special parts an instruction writes (R25 to R29, R51). -/
def writesSpecial : Instr → List Special
  | .ldI _ => [.index]
  | .addI _ => [.index]
  | .ldF _ => [.index]
  | .ldVxMem _ => [.index]
  | .ldMemVx _ => [.index, .memory]
  | .ret => [.stackPointer]
  | .call _ => [.stackPointer, .memory]
  | .cls => [.memory]
  | .drw _ _ _ => [.memory]
  | .ldB _ => [.memory]
  | .ldDtVx _ => [.delayTimer]
  | .ldStVx _ => [.soundTimer]
  | .ldVxK _ => [.awaitingKey]
  | _ => []

/-- From `s` to `t`, only the registers `ds`, the special parts `ws`, PC, the status and the draws may have changed. -/
structure KeepsBut (ds : List Nibble) (ws : List Special) (s t : State) : Prop where
  regs : RegsKeptBut ds s t
  index : .index ∉ ws → t.i = s.i
  stackPointer : .stackPointer ∉ ws → t.sp = s.sp
  delayTimer : .delayTimer ∉ ws → t.dt = s.dt
  soundTimer : .soundTimer ∉ ws → t.st = s.st
  awaitingKey : .awaitingKey ∉ ws → t.aw = s.aw
  memory : .memory ∉ ws → t.mem = s.mem
  system : SystemKept s t

/-- The answer of an instruction from `s`: no next state, the Fatal state of `s` (R231), or a state that `KeepsBut`. -/
def AnswerKeeps (ds : List Nibble) (ws : List Special) (s : State) (r : Result) : Prop :=
  ∀ t, r = .next t → (∃ cause addr, t = faultedState s cause addr) ∨ KeepsBut ds ws s t

section Updates

variable {ds : List Nibble} {ws : List Special} {s t : State}

namespace KeepsBut

theorem refl : KeepsBut ds ws s s :=
  ⟨fun _ _ => rfl, fun _ => rfl, fun _ => rfl, fun _ => rfl, fun _ => rfl, fun _ => rfl, fun _ => rfl, rfl, rfl, rfl, rfl⟩

/-! One more update after `t`, each allowed where its part is listed. -/

theorem advance (h : KeepsBut ds ws s t) (k : Word) : KeepsBut ds ws s (t.advance k) := { h with }

theorem jump (h : KeepsBut ds ws s t) (a : Word) : KeepsBut ds ws s (t.jump a) := { h with }

theorem signal (h : KeepsBut ds ws s t) (p : Status) : KeepsBut ds ws s (t.signal p) := { h with }

theorem drawn (h : KeepsBut ds ws s t) : KeepsBut ds ws s t.drawn := { h with }

theorem setReg (h : KeepsBut ds ws s t) {x : Nibble} (hx : x ∈ ds) (b : Byte) : KeepsBut ds ws s (t.setReg x b) :=
  { h with regs := fun r hr => (setReg_reg_other t b fun e : r = x => hr (e ▸ hx)).trans (h.regs r hr) }

theorem setRegAndFlag (h : KeepsBut ds ws s t) {x : Nibble} (hx : x ∈ ds) (hf : 0xF ∈ ds) (b f : Byte) :
    KeepsBut ds ws s (t.setRegAndFlag x b f) :=
  (h.setReg hx b).setReg hf f

theorem setI (h : KeepsBut ds ws s t) (hw : .index ∈ ws) (a : Word) : KeepsBut ds ws s (t.setI a) :=
  { h with index := (absurd hw ·) }

theorem setSp (h : KeepsBut ds ws s t) (hw : .stackPointer ∈ ws) (a : Word) : KeepsBut ds ws s { t with sp := a } :=
  { h with stackPointer := (absurd hw ·) }

theorem setDt (h : KeepsBut ds ws s t) (hw : .delayTimer ∈ ws) (b : Byte) : KeepsBut ds ws s { t with dt := b } :=
  { h with delayTimer := (absurd hw ·) }

theorem setSt (h : KeepsBut ds ws s t) (hw : .soundTimer ∈ ws) (b : Byte) : KeepsBut ds ws s { t with st := b } :=
  { h with soundTimer := (absurd hw ·) }

theorem setAw (h : KeepsBut ds ws s t) (hw : .awaitingKey ∈ ws) (b : Bool) : KeepsBut ds ws s (t.setAw b) :=
  { h with awaitingKey := (absurd hw ·) }

theorem setMem (h : KeepsBut ds ws s t) (hw : .memory ∈ ws) (m : Memory) : KeepsBut ds ws s { t with mem := m } :=
  { h with memory := (absurd hw ·) }

theorem writeBytes (h : KeepsBut ds ws s t) (hw : .memory ∈ ws) (a : Nat) (bs : List Byte) :
    KeepsBut ds ws s (t.writeBytes a bs) := by
  rw [writeBytes_eq]; exact h.setMem hw _

theorem storeBytes (h : KeepsBut ds ws s t) (hw : .memory ∈ ws) (a : Nat) (bs : List Byte) :
    KeepsBut ds ws s (Machine.storeBytes t a bs) := by
  rw [storeBytes_eq]; exact h.setMem hw _

theorem drawRows (h : KeepsBut ds ws s t) (hw : .memory ∈ ws) (hf : 0xF ∈ ds) (x0 y0 n : Nat) :
    KeepsBut ds ws s (Machine.drawRows x0 y0 n t) := by
  obtain ⟨only, regs⟩ := drawRows_touches x0 y0 n t
  rw [only]
  exact { h.setMem hw _ with regs := fun r hr => (regs r fun e : r = 0xF => hr (e ▸ hf)).trans (h.regs r hr) }

theorem loadRegs (h : KeepsBut ds ws s t) (a : Nat) {n : Nat} (hn : n ≤ 16)
    (hd : ∀ r : Nibble, r.toNat < n → r ∈ ds) : KeepsBut ds ws s (Machine.loadRegs t a n) := by
  have regs : RegsKeptBut ds s (Machine.loadRegs t a n) := fun r hr => by
    rw [loadRegs_reg t a n hn, if_neg fun k => hr (hd r k)]; exact h.regs r hr
  rw [loadRegs_eq] at regs ⊢
  exact { h with regs }

end KeepsBut

/-! The forms in which the instructions answer. -/

namespace AnswerKeeps

theorem next (h : KeepsBut ds ws s t) : AnswerKeeps ds ws s (.next t) := by
  rintro _ ⟨⟩; exact .inr h

theorem completed (h : KeepsBut ds ws s t) : AnswerKeeps ds ws s (completed t) := next (h.advance 2)

theorem skipIf (cond : Bool) : AnswerKeeps ds ws s (skipIf s cond) := next (KeepsBut.refl.advance _)

theorem fatal (cause : Cause) (addr : Nat) : AnswerKeeps ds ws s (fatal s cause addr) :=
  fun _ h => .inl ⟨cause, addr, fatal_next h⟩

theorem unimplemented (w k : Word) : AnswerKeeps ds ws s (unimplemented w k s) := by
  rcases unimplemented_cases w k s with ⟨-, h⟩ | ⟨-, h⟩ <;> rw [h]
  · exact next ((KeepsBut.refl.signal _).advance _)
  · exact fatal _ _

end AnswerKeeps

end Updates

/-- A register numbered up to X is one of V0 to VX, the list that R22 gives FX65 and FX55. -/
theorem mem_regsThrough {x r : Nibble} (h : r.toNat < x.toNat + 1) :
    r ∈ (List.range (x.toNat + 1)).map (BitVec.ofNat 4) :=
  List.mem_map.mpr ⟨r.toNat, List.mem_range.mpr h, by simp⟩

section Instructions

variable (s : State)

theorem execRet_keeps : AnswerKeeps [] [.stackPointer] s (execRet s) := by
  rw [execRet]
  split
  · exact .fatal _ _
  · exact .next ((KeepsBut.refl.setSp (by simp) _).jump _)

theorem execJp_keeps (nnn : Addr12) : AnswerKeeps [] [] s (execJp nnn s) := by
  rw [execJp]
  split
  · exact .next ((KeepsBut.refl.signal _).jump _)
  · exact .next (KeepsBut.refl.jump _)

theorem execCall_keeps (nnn : Addr12) : AnswerKeeps [] [.stackPointer, .memory] s (execCall nnn s) := by
  rw [execCall]
  split
  · exact .fatal _ _
  · split
    · exact fun _ h => nomatch h
    · exact .next (((KeepsBut.refl.setSp (by simp) _).writeBytes (by simp) _ _).jump _)

theorem execDrw_keeps (x y n : Nibble) : AnswerKeeps [0xF] [.memory] s (execDrw x y n s) := by
  rw [execDrw]
  split
  · exact .fatal _ _
  · exact .completed ((KeepsBut.refl.setReg (by simp [regVF]) 0).drawRows (by simp) (by simp) _ _ _)

theorem execSkp_keeps (x : Nibble) : AnswerKeeps [] [] s (execSkp x s) := by
  rw [execSkp]
  split
  · exact .fatal _ _
  · exact .skipIf _

theorem execSknp_keeps (x : Nibble) : AnswerKeeps [] [] s (execSknp x s) := by
  rw [execSknp]
  split
  · exact .fatal _ _
  · exact .skipIf _

theorem execLdVxK_keeps (x : Nibble) : AnswerKeeps [x] [.awaitingKey] s (execLdVxK x s) := by
  rw [execLdVxK]
  split
  · split
    · exact .completed ((KeepsBut.refl.setReg (by simp) _).setAw (by simp) _)
    · exact .next (KeepsBut.refl.signal _)
  · exact .next ((KeepsBut.refl.setAw (by simp) _).signal _)

theorem execLdB_keeps (x : Nibble) : AnswerKeeps [] [.memory] s (execLdB x s) := by
  rw [execLdB]
  split
  · exact .fatal _ _
  · exact .completed (KeepsBut.refl.storeBytes (by simp) _ _)

theorem execLdMemVx_keeps (x : Nibble) : AnswerKeeps [] [.index, .memory] s (execLdMemVx x s) := by
  rw [execLdMemVx]
  split
  · exact .fatal _ _
  · exact .completed ((KeepsBut.refl.storeBytes (by simp) _ _).setI (by simp) _)

theorem execLdVxMem_keeps (x : Nibble) :
    AnswerKeeps (writesRegs (.ldVxMem x)) [.index] s (execLdVxMem x s) := by
  rw [execLdVxMem]
  split
  · exact .fatal _ _
  · exact .completed ((KeepsBut.refl.loadRegs _ x.isLt fun _ => mem_regsThrough).setI (by simp) _)

theorem execUndefined_keeps (u : Undefined) : AnswerKeeps [] [] s (execUndefined u s) := by
  cases u <;> exact .unimplemented _ _

/-- Every instruction changes only what its rows of R22, R25 to R29 and R51 list, or takes the Fatal. -/
theorem exec_keeps (i : Instr) : AnswerKeeps (writesRegs i) (writesSpecial i) s (exec i s) :=
  match i with
  | .sys _ => .unimplemented _ _
  | .cls => .completed (KeepsBut.refl.writeBytes (by simp [writesSpecial]) _ _)
  | .ret => execRet_keeps s
  | .jp nnn => execJp_keeps s nnn
  | .call nnn => execCall_keeps s nnn
  | .seImm _ _ | .sneImm _ _ | .seReg _ _ _ | .sneReg _ _ _ => .skipIf _
  | .ldImm _ _ | .addImm _ _ | .ldReg _ _ | .orReg _ _ | .andReg _ _ | .xorReg _ _ | .ldVxDt _ =>
    .completed (KeepsBut.refl.setReg (by simp [writesRegs]) _)
  | .addReg _ _ | .subReg _ _ | .shr _ _ | .subn _ _ | .shl _ _ =>
    .completed (KeepsBut.refl.setRegAndFlag (by simp [writesRegs]) (by simp [writesRegs]) _ _)
  | .ldI _ | .addI _ | .ldF _ => .completed (KeepsBut.refl.setI (by simp [writesSpecial]) _)
  | .jpV0 _ => .next (KeepsBut.refl.jump _)
  | .rnd _ _ => .completed (KeepsBut.refl.setReg (by simp [writesRegs]) _).drawn
  | .drw x y n => execDrw_keeps s x y n
  | .skp x => execSkp_keeps s x
  | .sknp x => execSknp_keeps s x
  | .ldVxK x => execLdVxK_keeps s x
  | .ldDtVx _ => .completed (KeepsBut.refl.setDt (by simp [writesSpecial]) _)
  | .ldStVx _ => .completed (KeepsBut.refl.setSt (by simp [writesSpecial]) _)
  | .ldB x => execLdB_keeps s x
  | .ldMemVx x => execLdMemVx_keeps s x
  | .ldVxMem x => execLdVxMem_keeps s x

end Instructions

section Writers

/-! The writers of each special register, as O55 lists them. -/

variable {i : Instr}

theorem writesSpecial_index (h : .index ∈ writesSpecial i) :
    (∃ nnn, i = .ldI nnn) ∨ (∃ x, i = .addI x ∨ i = .ldF x ∨ i = .ldMemVx x ∨ i = .ldVxMem x) := by
  cases i <;> simp [writesSpecial] at h ⊢

theorem writesSpecial_stackPointer (h : .stackPointer ∈ writesSpecial i) : i = .ret ∨ ∃ nnn, i = .call nnn := by
  cases i <;> simp [writesSpecial] at h ⊢

theorem writesSpecial_delayTimer (h : .delayTimer ∈ writesSpecial i) : ∃ x, i = .ldDtVx x := by
  cases i <;> simp [writesSpecial] at h ⊢

theorem writesSpecial_soundTimer (h : .soundTimer ∈ writesSpecial i) : ∃ x, i = .ldStVx x := by
  cases i <;> simp [writesSpecial] at h ⊢

theorem writesSpecial_awaitingKey (h : .awaitingKey ∈ writesSpecial i) : ∃ x, i = .ldVxK x := by
  cases i <;> simp [writesSpecial] at h ⊢

end Writers

/-- Settles O52: a Fatal writes no register, and a completing instruction only those of its row in R22. -/
theorem registerWritesAreTheTable : Obligations.RegisterWritesAreTheTable := by
  intro i s t h
  rcases exec_keeps s i t h with ⟨cause, addr, rfl⟩ | keeps
  · exact fun _ _ => rfl
  · exact keeps.regs

/-- Settles O55: a Fatal latches RS, FR and the status alone, and a completing instruction changes a special register
only where `writesSpecial` lists it. -/
theorem specialRegisterWriters : Obligations.SpecialRegisterWriters := by
  intro i s t h
  rcases exec_keeps s i t h with ⟨cause, addr, rfl⟩ | keeps
  · exact ⟨absurd rfl, absurd rfl, absurd rfl, absurd rfl, absurd rfl, rfl, rfl, .inr ⟨cause, addr, rfl⟩⟩
  · obtain ⟨keys, rs, fr, cfg⟩ := keeps.system
    exact ⟨fun ne => writesSpecial_index (by_contra fun no => ne (keeps.index no)),
      fun ne => writesSpecial_stackPointer (by_contra fun no => ne (keeps.stackPointer no)),
      fun ne => writesSpecial_delayTimer (by_contra fun no => ne (keeps.delayTimer no)),
      fun ne => writesSpecial_soundTimer (by_contra fun no => ne (keeps.soundTimer no)),
      fun ne => writesSpecial_awaitingKey (by_contra fun no => ne (keeps.awaitingKey no)),
      keys, cfg, .inl ⟨rs, fr⟩⟩

end Sys2Proof.Proofs
end

section
/-! The invariant of the machine (R26, R30, R50, R55) and the glyph table (R36, R60) through one step: the instructions
that write memory, the two that write SP, the fetch, and the commit. O58 and O56 are read off one lemma. -/

namespace Sys2Proof.Proofs

open Sys2Proof.Machine Sys2Proof.Claims Sys2Proof.Laws

/-- From memory `m` to `m'`: the canonical form holds, and the glyph table is as before unless P_FONT_WRITE is STORE. -/
structure MemorySound (cfg : Config) (m m' : Memory) : Prop where
  wf : Memory.wf m'
  glyphs : cfg.fontWrite ≠ .store → ∀ a, a < 0x050 → Memory.read m' a = Memory.read m a

theorem MemorySound.refl {cfg : Config} {m : Memory} (hm : Memory.wf m) : MemorySound cfg m m :=
  ⟨hm, fun _ _ _ => rfl⟩

/-- What a step from `s` owes: the invariant, and the glyph table unless P_FONT_WRITE is STORE. -/
structure Sound (s t : State) : Prop where
  memory : MemorySound s.cfg s.mem t.mem
  stack : StackInBounds t
  latched : FaultLatched t

theorem Sound.inv {s t : State} (h : Sound s t) : t.Inv := ⟨h.memory.wf, h.stack, h.latched⟩

theorem completed_next {s t : State} (h : completed s = .next t) : t = s.advance 2 := by
  injection h with h; exact h.symm

/-- R60: where the checks of FX33 and FX55 pass under FAULT, no byte lies in the glyph table. -/
theorem storeCheck_low {cfg : Config} {a n : Nat} (hn : 0 < n) (h : storeCheck cfg a n = none)
    (hf : cfg.fontWrite = .fault) : 0x050 ≤ a := by
  by_contra low
  have check : fontCheck cfg a n = some a := by rw [fontCheck, hf]; exact if_pos ⟨hn, by omega⟩
  rw [storeCheck, check] at h
  split at h <;> cases h

section Memory

variable {s t : State}

theorem writeBytes_sound (hm : Memory.wf s.mem) {a : Nat} {bs : List Byte} (low : 0x050 ≤ a)
    (high : a + bs.length ≤ 0x1000) : MemorySound s.cfg s.mem (s.writeBytes a bs).mem := by
  obtain ⟨wf, read⟩ := writeBytes_spec hm high
  exact ⟨wf, fun _ k hk => (read k).trans (dif_neg (by omega))⟩

theorem storeBytes_sound (hm : Memory.wf s.mem) {a : Nat} {bs : List Byte} (hn : 0 < bs.length)
    (check : storeCheck s.cfg a bs.length = none) : MemorySound s.cfg s.mem (storeBytes s a bs).mem := by
  obtain ⟨wf, read⟩ := storeBytes_spec hm (storeCheck_bound hn check)
  refine ⟨wf, fun noStore k hk => (read k).trans (dif_neg fun ⟨inRange, kept⟩ => ?_)⟩
  rcases policy : s.cfg.fontWrite with _ | _ | _
  case fault => have := storeCheck_low hn check policy; omega
  case ignore => simp [dropped, policy, hk] at kept
  case store => exact noStore policy

theorem drawRows_sound (hm : Memory.wf s.mem) {x0 y0 n : Nat} (hn : n ≤ 16)
    (targets : ∀ r < n, ∀ y, rowPlace s.cfg (y0 + r) = some y → ∀ c < 8, x0 + c < 64 →
      pixelAddr s.cfg (x0 + c) y ≤ 0xFFF) : MemorySound s.cfg s.mem (drawRows x0 y0 n s).mem := by
  obtain ⟨blits, -⟩ := drawRows_spec hm n hn targets
  have base := (displayBase_in_domain s.cfg).1
  exact ⟨blits.wf, fun _ a ha => blits.below a (by omega)⟩

theorem execCls_memory (hm : Memory.wf s.mem) (h : execCls s = .next t) : MemorySound s.cfg s.mem t.mem := by
  obtain ⟨low, high⟩ := displayBase_in_domain s.cfg
  rw [completed_next h, advance_mem]
  exact writeBytes_sound hm low (by simpa using high)

/-- R146: CALL takes the Fatal, or stores its record inside the stack region. -/
theorem execCall_next {nnn : Addr12} (h : execCall nnn s = .next t) :
    (∃ addr, t = faultedState s .stackOverflow addr) ∨
    (s.cfg.stackBottom + 2 ≤ s.sp.toNat ∧
      t = State.jump ({ s with sp := s.sp - 2 }.writeWord (s.sp - 2).toNat (s.pc + 2)) (zext16 nnn)) := by
  rw [execCall] at h
  split_ifs at h with overflow outside
  · exact .inl ⟨_, fatal_next h⟩
  · injection h with h; exact .inr ⟨by omega, h.symm⟩

/-- R142: RET takes the Fatal, or gives its record back inside the stack region. -/
theorem execRet_next (h : execRet s = .next t) :
    (∃ addr, t = faultedState s .stackUnderflow addr) ∨
    (s.sp.toNat + 2 ≤ s.cfg.stackTop ∧ t = State.jump { s with sp := s.sp + 2 } (s.readWord s.sp.toNat)) := by
  rw [execRet] at h
  split_ifs at h with underflow
  · exact .inl ⟨_, fatal_next h⟩
  · injection h with h; exact .inr ⟨by omega, h.symm⟩

/-- R26, R146: a stack pointer of at least 2 does not wrap when a record is taken. -/
theorem toNat_sub_two {w : Word} (h : 2 ≤ w.toNat) : (w - 2).toNat = w.toNat - 2 :=
  BitVec.toNat_sub_of_le (BitVec.le_def.mpr h)

theorem execCall_memory (hs : s.Inv) {nnn : Addr12} (h : execCall nnn s = .next t) :
    MemorySound s.cfg s.mem t.mem := by
  obtain ⟨hm, ⟨-, spHigh, -⟩, -⟩ := hs
  rcases execCall_next h with ⟨addr, rfl⟩ | ⟨room, rfl⟩
  · exact .refl hm
  · have bottom := (stackBottom_in_domain s.cfg).2.1
    have top := (stackTop_in_domain s.cfg).1
    have sp := toNat_sub_two (w := s.sp) (by omega)
    exact writeBytes_sound (s := { s with sp := s.sp - 2 }) hm (by omega)
      (by simp only [List.length_cons, List.length_nil]; omega)

theorem execDrw_memory (hm : Memory.wf s.mem) {x y n : Nibble} (h : execDrw x y n s = .next t) :
    MemorySound s.cfg s.mem t.mem := by
  rw [execDrw] at h
  split at h
  · rw [fatal_next h]; exact .refl hm
  · rename_i check
    rw [completed_next h]
    exact drawRows_sound (s := s.setReg regVF 0) hm (by have := n.isLt; omega) (spriteCheck_targets check)

theorem execLdB_memory (hm : Memory.wf s.mem) {x : Nibble} (h : execLdB x s = .next t) :
    MemorySound s.cfg s.mem t.mem := by
  rw [execLdB] at h
  split at h
  · rw [fatal_next h]; exact .refl hm
  · rename_i check
    rw [completed_next h]
    exact storeBytes_sound hm (by simp [bcdDigits]) check

theorem execLdMemVx_memory (hm : Memory.wf s.mem) {x : Nibble} (h : execLdMemVx x s = .next t) :
    MemorySound s.cfg s.mem t.mem := by
  rw [execLdMemVx] at h
  split at h
  · rw [fatal_next h]; exact .refl hm
  · rename_i check
    rw [completed_next h]
    exact storeBytes_sound hm (by simp [regsUpTo_length]) (by rw [regsUpTo_length]; exact check)

end Memory

/-- The writers of memory (R51). -/
theorem writesSpecial_memory {i : Instr} (h : .memory ∈ writesSpecial i) :
    i = .cls ∨ (∃ nnn, i = .call nnn) ∨ (∃ x y n, i = .drw x y n) ∨ (∃ x, i = .ldB x) ∨ (∃ x, i = .ldMemVx x) := by
  cases i <;> simp [writesSpecial] at h ⊢

section Step

variable {s t : State}

/-- R231: a Fatal writes no memory and moves no SP, and latches its record. -/
theorem sound_of_faulted (hs : s.Inv) (cause : Cause) (addr : Nat) : Sound s (faultedState s cause addr) :=
  have ⟨hm, inBounds, _⟩ := hs
  ⟨.refl hm, inBounds, by simp [FaultLatched, faultedState]⟩

/-- A frame that keeps memory and SP keeps the invariant. -/
theorem KeepsBut.sound {ds : List Nibble} {ws : List Special} (h : KeepsBut ds ws s t) (hs : s.Inv)
    (memory : MemorySound s.cfg s.mem t.mem) (stack : .stackPointer ∈ ws → StackInBounds t) : Sound s t := by
  obtain ⟨-, inBounds, latched⟩ := hs
  obtain ⟨-, rs, fr, cfg⟩ := h.system
  refine ⟨memory, ?_, by rwa [FaultLatched, rs, fr]⟩
  by_cases hw : .stackPointer ∈ ws
  · exact stack hw
  · rwa [StackInBounds, h.stackPointer hw, cfg]

theorem exec_memory {i : Instr} (hs : s.Inv) (h : exec i s = .next t) : MemorySound s.cfg s.mem t.mem := by
  by_cases hw : .memory ∈ writesSpecial i
  · rcases writesSpecial_memory hw with rfl | ⟨nnn, rfl⟩ | ⟨x, y, n, rfl⟩ | ⟨x, rfl⟩ | ⟨x, rfl⟩
    · exact execCls_memory hs.1 h
    · exact execCall_memory hs h
    · exact execDrw_memory hs.1 h
    · exact execLdB_memory hs.1 h
    · exact execLdMemVx_memory hs.1 h
  · rcases exec_keeps s i t h with ⟨cause, addr, rfl⟩ | keeps
    · exact .refl hs.1
    · rw [keeps.memory hw]; exact .refl hs.1

@[simp] theorem writeWord_sp (a : Nat) (w : Word) : (s.writeWord a w).sp = s.sp := rfl
@[simp] theorem writeWord_cfg (a : Nat) (w : Word) : (s.writeWord a w).cfg = s.cfg := rfl

/-- R26: RET and CALL move SP by one record, and only where the record lies in the stack region. -/
theorem exec_stack {i : Instr} (hs : s.Inv) (h : exec i s = .next t)
    (hw : .stackPointer ∈ writesSpecial i) : StackInBounds t := by
  obtain ⟨-, ⟨low, high, even⟩, -⟩ := hs
  rcases writesSpecial_stackPointer hw with rfl | ⟨nnn, rfl⟩
  · rcases execRet_next h with ⟨addr, rfl⟩ | ⟨room, rfl⟩
    · exact ⟨low, high, even⟩
    · have top := (stackTop_in_domain s.cfg).1
      have sp : (s.sp + 2).toNat = s.sp.toNat + 2 := BitVec.toNat_add_of_lt (by simp; omega)
      simp only [StackInBounds, jump_sp, jump_cfg, sp]
      omega
  · rcases execCall_next h with ⟨addr, rfl⟩ | ⟨room, rfl⟩
    · exact ⟨low, high, even⟩
    · have sp := toNat_sub_two (w := s.sp) (by omega)
      simp only [StackInBounds, jump_sp, jump_cfg, writeWord_sp, writeWord_cfg, sp]
      omega

theorem exec_sound {i : Instr} (hs : s.Inv) (h : exec i s = .next t) : Sound s t := by
  rcases exec_keeps s i t h with ⟨cause, addr, rfl⟩ | keeps
  · exact sound_of_faulted hs cause addr
  · exact keeps.sound hs (exec_memory hs h) (exec_stack hs h)

theorem execUndefined_sound {u : Undefined} (hs : s.Inv) (h : execUndefined u s = .next t) : Sound s t := by
  rcases execUndefined_keeps s u t h with ⟨cause, addr, rfl⟩ | keeps
  · exact sound_of_faulted hs cause addr
  · exact keeps.sound hs (by rw [keeps.memory (by simp)]; exact .refl hs.1) (by simp)

theorem fetchAndExecute_sound (hs : s.Inv) (h : fetchAndExecute s = .next t) : Sound s t := by
  rw [fetchAndExecute] at h
  split at h
  · rw [fatal_next h]; exact sound_of_faulted hs _ _
  · rw [dispatch] at h
    split at h
    · exact exec_sound hs h
    · exact execUndefined_sound hs h

theorem beginStep_inv (hs : s.Inv) : (beginStep s).Inv := by rw [beginStep_eq]; exact hs

theorem beginStep_sound (h : Sound (beginStep s) t) : Sound s t := by
  rw [beginStep_eq] at h
  exact ⟨h.memory, h.stack, h.latched⟩

theorem endStep_sound (h : Sound s t) : Sound s (endStep t) := by
  rw [endStep_eq]
  exact ⟨h.memory, h.stack, h.latched⟩

/-- R83, R231: every step owes the invariant and the glyph table, whether it idles, completes or is discarded. -/
theorem step_sound (hs : s.Inv) (h : step s = .next t) : Sound s t := by
  obtain ⟨hm, stack, latched⟩ := hs
  rcases step_next h with ⟨-, rfl⟩ | ⟨-, u, hu, hend⟩
  · exact ⟨.refl hm, stack, latched⟩
  · have sound : Sound s u := beginStep_sound (fetchAndExecute_sound (beginStep_inv ⟨hm, stack, latched⟩) hu)
    rcases hend with ⟨-, rfl⟩ | ⟨-, rfl⟩
    · exact endStep_sound sound
    · exact ⟨.refl hm, stack, sound.latched⟩

end Step

/-- Settles O58: an instruction keeps the invariant by what it writes, a Fatal by writing nothing, and begin and end of
the step touch the status and the timers alone. -/
theorem stepKeepsInvariant : Obligations.StepKeepsInvariant :=
  fun _ _ hs h => (step_sound hs h).inv

/-- Settles O56: under FAULT and IGNORE no store of a step reaches an address below 0x050. -/
theorem glyphTableIsNeverMutated : Obligations.GlyphTableIsNeverMutated :=
  fun _ _ hs noStore h => (step_sound hs h).memory.glyphs noStore

end Sys2Proof.Proofs
end

section
/-! A register that an instruction neither reads nor writes (R22) has no influence on it: changing such a register before
the instruction is changing it after. O53. -/

namespace Sys2Proof.Proofs

open Sys2Proof.Machine Sys2Proof.Claims Sys2Proof.Laws

/-- An answer with its next state, where there is one, changed by `f`. -/
def mapNext (f : State → State) : Result → Result
  | .next t => .next (f t)
  | .fault e => .fault e
  | .refused e => .refused e

theorem mapNext_ite (f : State → State) (c : Prop) [Decidable c] (p q : Result) :
    mapNext f (if c then p else q) = if c then mapNext f p else mapNext f q :=
  apply_ite (mapNext f) c p q

section Commute

variable (s : State) {r : Nibble} (b : Byte)

/-! The answers, with register `r` changed before or after. -/

theorem completed_setReg : completed (s.setReg r b) = mapNext (·.setReg r b) (completed s) := rfl

theorem skipIf_setReg (cond : Bool) : skipIf (s.setReg r b) cond = mapNext (·.setReg r b) (skipIf s cond) := rfl

theorem fatal_setReg (cause : Cause) (addr : Nat) :
    fatal (s.setReg r b) cause addr = mapNext (·.setReg r b) (fatal s cause addr) := rfl

theorem unimplemented_setReg (w k : Word) :
    unimplemented w k (s.setReg r b) = mapNext (·.setReg r b) (unimplemented w k s) := by
  simp only [unimplemented, setReg_cfg]
  split <;> rfl

/-! The operations, with register `r` changed before or after. -/

theorem setReg_reg_of_ne {x : Nibble} (h : r ≠ x) : (s.setReg r b).reg x = s.reg x := setReg_reg_other s b h.symm

theorem setReg_comm {x : Nibble} (h : r ≠ x) (c : Byte) : (s.setReg r b).setReg x c = (s.setReg x c).setReg r b := by
  simp only [State.setReg, Vector.set_comm _ _ fun e => h (BitVec.eq_of_toNat_eq e)]

theorem setRegAndFlag_comm {x : Nibble} (h : r ≠ x) (hf : r ≠ 0xF) (c f : Byte) :
    (s.setReg r b).setRegAndFlag x c f = (s.setRegAndFlag x c f).setReg r b := by
  simp only [State.setRegAndFlag, regVF, setReg_comm _ b h, setReg_comm _ b hf]

theorem writeBytes_setReg (a : Nat) (bs : List Byte) :
    (s.setReg r b).writeBytes a bs = (s.writeBytes a bs).setReg r b := by
  induction bs generalizing s a with
  | nil => rfl
  | cons c rest ih => exact ih (s.writeByte a c) (a + 1)

theorem storeBytes_setReg (a : Nat) (bs : List Byte) :
    storeBytes (s.setReg r b) a bs = (storeBytes s a bs).setReg r b := by
  induction bs generalizing s a with
  | nil => rfl
  | cons c rest ih =>
    have byte : (if dropped s.cfg a then s.setReg r b else (s.setReg r b).writeByte a c) =
        (if dropped s.cfg a then s else s.writeByte a c).setReg r b := by split <;> rfl
    rw [storeBytes, setReg_cfg, byte, ih, storeBytes]

theorem drawColumn_setReg (hf : r ≠ 0xF) (x0 y : Nat) (row : Byte) (c : Nat) :
    drawColumn x0 y row (s.setReg r b) c = (drawColumn x0 y row s c).setReg r b := by
  simp only [drawColumn, xorPixel, setReg_readByte, setReg_cfg, regVF, setReg_comm s b hf]
  split
  · rfl
  · split
    · split <;> rfl
    · rfl

theorem drawSpriteRow_setReg (hf : r ≠ 0xF) (x0 y0 k : Nat) :
    drawSpriteRow x0 y0 (s.setReg r b) k = (drawSpriteRow x0 y0 s k).setReg r b := by
  simp only [drawSpriteRow, setReg_cfg, setReg_readByte, setReg_i]
  split
  · rfl
  · exact List.foldl_hom (·.setReg r b) fun t c => drawColumn_setReg t b hf _ _ _ c

theorem drawRows_setReg (hf : r ≠ 0xF) (x0 y0 n : Nat) :
    drawRows x0 y0 n (s.setReg r b) = (drawRows x0 y0 n s).setReg r b := by
  rw [drawRows, drawRows]
  exact List.foldl_hom (·.setReg r b) fun t k => drawSpriteRow_setReg t b hf x0 y0 k

theorem loadRegs_setReg (a n : Nat) (h : ∀ k < n, r ≠ BitVec.ofNat 4 k) :
    loadRegs (s.setReg r b) a n = (loadRegs s a n).setReg r b := by
  simp only [loadRegs, setReg_readByte]
  induction n with
  | zero => rfl
  | succ n ih =>
    simp only [List.range_succ, List.foldl_append, List.foldl_cons, List.foldl_nil]
    rw [ih fun k hk => h k (by omega), setReg_comm _ b (h n (by omega))]

theorem regsUpTo_setReg {x : Nibble} (h : x.toNat < r.toNat) : regsUpTo (s.setReg r b) x = regsUpTo s x := by
  rw [regsUpTo, setReg_v, Vector.toList_set, List.take_set_of_le h, regsUpTo]

theorem shiftSource_setReg {x y : Nibble} (h : r ∉ if s.cfg.shiftSource = .vx then [x] else [y]) :
    shiftSource (s.setReg r b) x y = shiftSource s x y := by
  simp only [shiftSource, setReg_cfg]
  split <;> rename_i source <;> rw [source] at h <;> exact setReg_reg_of_ne s b (by simpa using h)

end Commute

section Instructions

variable (s : State) {r : Nibble} (b : Byte)

theorem execCls_setReg : execCls (s.setReg r b) = mapNext (·.setReg r b) (execCls s) := by
  rw [execCls, execCls, setReg_cfg, writeBytes_setReg, completed_setReg]

theorem execRet_setReg : execRet (s.setReg r b) = mapNext (·.setReg r b) (execRet s) := by
  rw [execRet, execRet, mapNext_ite]; rfl

theorem execJp_setReg (nnn : Addr12) : execJp nnn (s.setReg r b) = mapNext (·.setReg r b) (execJp nnn s) := by
  by_cases self : zext16 nnn = s.pc
  · rw [execJp, execJp, if_pos self, setReg_pc, if_pos self]; rfl
  · rw [execJp, execJp, if_neg self, setReg_pc, if_neg self]; rfl

theorem execCall_setReg (nnn : Addr12) : execCall nnn (s.setReg r b) = mapNext (·.setReg r b) (execCall nnn s) := by
  rw [execCall, execCall, mapNext_ite, mapNext_ite]; rfl

theorem execDrw_setReg {x y : Nibble} (hx : r ≠ x) (hy : r ≠ y) (hf : r ≠ 0xF) (n : Nibble) :
    execDrw x y n (s.setReg r b) = mapNext (·.setReg r b) (execDrw x y n s) := by
  have check : ∀ x0 y0, spriteCheck (s.setReg r b) x0 y0 n.toNat = spriteCheck s x0 y0 n.toNat := fun _ _ => rfl
  simp only [execDrw, setReg_reg_of_ne s b hx, setReg_reg_of_ne s b hy, check]
  split
  · rfl
  · rw [regVF, setReg_comm s b hf, drawRows_setReg _ b hf, completed_setReg]

theorem execSkp_setReg {x : Nibble} (hx : r ≠ x) :
    execSkp x (s.setReg r b) = mapNext (·.setReg r b) (execSkp x s) := by
  simp only [execSkp, setReg_cfg, setReg_reg_of_ne s b hx]
  split <;> rfl

theorem execSknp_setReg {x : Nibble} (hx : r ≠ x) :
    execSknp x (s.setReg r b) = mapNext (·.setReg r b) (execSknp x s) := by
  simp only [execSknp, setReg_cfg, setReg_reg_of_ne s b hx]
  split <;> rfl

theorem execLdVxK_setReg {x : Nibble} (hx : r ≠ x) :
    execLdVxK x (s.setReg r b) = mapNext (·.setReg r b) (execLdVxK x s) := by
  have pressed : firstPressed (s.setReg r b) = firstPressed s := rfl
  simp only [execLdVxK, setReg_aw, pressed]
  split
  · split
    · rw [setReg_comm s b hx]; rfl
    · rfl
  · rfl

theorem execLdB_setReg {x : Nibble} (hx : r ≠ x) :
    execLdB x (s.setReg r b) = mapNext (·.setReg r b) (execLdB x s) := by
  simp only [execLdB, setReg_cfg, setReg_i, setReg_reg_of_ne s b hx, storeBytes_setReg]
  split <;> rfl

/-- A register that is not one of V0 to VX has a number above X. -/
theorem lt_of_notMem_regsThrough {x : Nibble} (h : r ∉ (List.range (x.toNat + 1)).map (BitVec.ofNat 4)) :
    x.toNat < r.toNat := by
  by_contra le
  exact h (mem_regsThrough (by omega))

theorem execLdMemVx_setReg {x : Nibble} (hx : r ∉ readsRegs s.cfg (.ldMemVx x)) :
    execLdMemVx x (s.setReg r b) = mapNext (·.setReg r b) (execLdMemVx x s) := by
  simp only [execLdMemVx, setReg_cfg, setReg_i, regsUpTo_setReg s b (lt_of_notMem_regsThrough hx), storeBytes_setReg]
  split <;> rfl

theorem execLdVxMem_setReg {x : Nibble} (hx : r ∉ writesRegs (.ldVxMem x)) :
    execLdVxMem x (s.setReg r b) = mapNext (·.setReg r b) (execLdVxMem x s) := by
  have other : ∀ k < x.toNat + 1, r ≠ BitVec.ofNat 4 k :=
    fun k hk e => hx (List.mem_map.mpr ⟨k, List.mem_range.mpr hk, e.symm⟩)
  simp only [execLdVxMem, setReg_i, loadRegs_setReg s b _ _ other]
  split <;> rfl

theorem execUndefined_setReg (u : Undefined) :
    execUndefined u (s.setReg r b) = mapNext (·.setReg r b) (execUndefined u s) := by
  cases u <;> exact unimplemented_setReg s b _ _

/-- R22: changing a register outside an instruction's reads and writes commutes with the instruction. -/
theorem exec_setReg (i : Instr) (hr : r ∉ readsRegs s.cfg i) (hw : r ∉ writesRegs i) :
    exec i (s.setReg r b) = mapNext (·.setReg r b) (exec i s) := by
  cases i
  case sys nnn => exact unimplemented_setReg s b _ _
  case cls => exact execCls_setReg s b
  case ret => exact execRet_setReg s b
  case jp nnn => exact execJp_setReg s b nnn
  case call nnn => exact execCall_setReg s b nnn
  case ldI nnn => rfl
  case seImm x nn | sneImm x nn =>
    have hx : r ≠ x := by simpa [readsRegs] using hr
    simp only [exec, execSeImm, execSneImm, setReg_reg_of_ne s b hx, skipIf_setReg]
  case seReg x y n | sneReg x y n =>
    obtain ⟨hx, hy⟩ : r ≠ x ∧ r ≠ y := by simpa [readsRegs] using hr
    simp only [exec, execSeReg, execSneReg, setReg_reg_of_ne s b hx, setReg_reg_of_ne s b hy, skipIf_setReg]
  case ldImm x nn | ldVxDt x =>
    have hx : r ≠ x := by simpa [writesRegs] using hw
    exact congrArg completed (setReg_comm s b hx _)
  case rnd x nn =>
    have hx : r ≠ x := by simpa [writesRegs] using hw
    exact congrArg (completed ·.drawn) (setReg_comm s b hx _)
  case addImm x nn =>
    have hx : r ≠ x := by simpa [writesRegs] using hw
    simp only [exec, execAddImm, setReg_reg_of_ne s b hx, setReg_comm s b hx, completed_setReg]
  case ldReg x y | orReg x y | andReg x y | xorReg x y =>
    have hx : r ≠ x := by simpa [writesRegs] using hw
    have hy : r ≠ y := by simp_all [readsRegs]
    simp only [exec, execLdReg, execOrReg, execAndReg, execXorReg, setReg_reg_of_ne s b hx, setReg_reg_of_ne s b hy,
      setReg_comm s b hx, completed_setReg]
  case addReg x y | subReg x y | subn x y =>
    obtain ⟨hx, hy⟩ : r ≠ x ∧ r ≠ y := by simpa [readsRegs] using hr
    obtain ⟨-, hf⟩ : r ≠ x ∧ r ≠ 0xF := by simpa [writesRegs] using hw
    simp only [exec, execAddReg, execSubReg, execSubn, setReg_reg_of_ne s b hx, setReg_reg_of_ne s b hy,
      setRegAndFlag_comm s b hx hf, completed_setReg]
  case shr x y | shl x y =>
    obtain ⟨hx, hf⟩ : r ≠ x ∧ r ≠ 0xF := by simpa [writesRegs] using hw
    simp only [exec, execShr, execShl, shiftSource_setReg s b hr, setReg_cfg, setRegAndFlag_comm s b hx hf,
      completed_setReg]
  case jpV0 nnn =>
    have h0 : r ≠ 0x0 := by simpa [readsRegs] using hr
    rw [exec, execJpV0, setReg_reg_of_ne s b h0]; rfl
  case ldDtVx x | ldStVx x | addI x | ldF x =>
    have hx : r ≠ x := by simpa [readsRegs] using hr
    simp only [exec, execLdDtVx, execLdStVx, execAddI, execLdF, setReg_i, setReg_reg_of_ne s b hx]
    rfl
  case drw x y n =>
    obtain ⟨hx, hy⟩ : r ≠ x ∧ r ≠ y := by simpa [readsRegs] using hr
    exact execDrw_setReg s b hx hy (by simpa [writesRegs] using hw) n
  case skp x => exact execSkp_setReg s b (by simpa [readsRegs] using hr)
  case sknp x => exact execSknp_setReg s b (by simpa [readsRegs] using hr)
  case ldVxK x => exact execLdVxK_setReg s b (by simpa [writesRegs] using hw)
  case ldB x => exact execLdB_setReg s b (by simpa [readsRegs] using hr)
  case ldMemVx x => exact execLdMemVx_setReg s b hr
  case ldVxMem x => exact execLdVxMem_setReg s b hw

end Instructions

/-- Settles O53: with the register changed, the instruction answers the same state with that register changed. -/
theorem unreadRegistersDoNotMatter : Obligations.UnreadRegistersDoNotMatter := by
  intro i s t r b hr hw h
  rw [exec_setReg s b i hr hw, h, mapNext]

end Sys2Proof.Proofs
end

section
/-! The state after reset under every configuration (R35, R260), the invariant there, and the invariant under the host's
other events (R34): O1, O57, O59. -/

namespace Sys2Proof.Proofs

open Sys2Proof.Machine Sys2Proof.Laws

/-- The reset state before the glyph table is written: memory lists nothing. -/
def blankReset (c : Config) : State := { State.reset with sp := BitVec.ofNat 16 c.stackTop, cfg := c }

/-- R36: reset writes the glyph table and nothing else. -/
theorem resetWith_eq (c : Config) : resetWith c = { blankReset c with mem := (resetWith c).mem } :=
  writeBytes_eq (blankReset c) 0 c.font.toList

theorem blankReset_readByte (c : Config) (a : Nat) : (blankReset c).readByte a = unlisted a := rfl

/-- R35, R50: memory after reset is canonical, the glyph table below 0x050 and 0 elsewhere. -/
theorem resetWith_memory (c : Config) : Memory.wf (resetWith c).mem ∧
    ∀ a, (resetWith c).readByte a = if h : a < 80 then c.font[a] else 0 := by
  have canonical : Memory.wf (blankReset c).mem := ⟨.nil, by simp [blankReset, State.reset]⟩
  obtain ⟨wf, read⟩ := writeBytes_spec canonical (a := 0) (bs := c.font.toList) (by simp)
  refine ⟨wf, fun a => (read a).trans ?_⟩
  by_cases ha : a < 80
  · simp [ha]
  · simp [ha, blankReset_readByte, unlisted]

/-- R35: the registers after reset, but for SP. -/
theorem resetWith_fields (c : Config) : (∀ r, (resetWith c).reg r = 0) ∧ (resetWith c).i = 0x0000 ∧
    (resetWith c).pc = 0x0200 ∧ (resetWith c).dt = 0 ∧ (resetWith c).st = 0 ∧ (∀ k, (resetWith c).key k = false) ∧
    (resetWith c).aw = false ∧ (resetWith c).rs = .running ∧ (resetWith c).fr = none ∧ (resetWith c).cfg = c := by
  rw [resetWith_eq]
  exact ⟨fun _ => Vector.getElem_replicate .., rfl, rfl, rfl, rfl, fun _ => Vector.getElem_replicate .., rfl, rfl, rfl,
    rfl⟩

theorem resetWith_sp (c : Config) : (resetWith c).sp.toNat = c.stackTop := by
  have top := (stackTop_in_domain c).1
  rw [resetWith_eq, blankReset, BitVec.toNat_ofNat]
  omega

/-- R26, R30, R50: reset meets the invariant, with SP at the top of its region. -/
theorem resetWith_inv (c : Config) : (resetWith c).Inv := by
  obtain ⟨-, -, bottomBelowTop⟩ := stackBottom_in_domain c
  obtain ⟨-, sizeEven⟩ := stackTop_in_domain c
  obtain ⟨-, -, -, -, -, -, -, rs, fr, cfg⟩ := resetWith_fields c
  refine ⟨(resetWith_memory c).1, ?_, ?_⟩
  · rw [StackInBounds, resetWith_sp, cfg]
    exact ⟨bottomBelowTop.le, le_rfl, sizeEven⟩
  · rw [FaultLatched, rs, fr]; decide

/-- R36: the default glyphs are what an unlisted address reads as, so writing them lists nothing. -/
theorem resetWith_default_mem : (resetWith defaultConfig).mem = [] := by
  obtain ⟨wf, read⟩ := resetWith_memory defaultConfig
  exact wf_eq_of_read_eq wf ⟨.nil, by simp⟩ read

theorem reset_eq_resetWith : State.reset = resetWith defaultConfig := by
  rw [resetWith_eq, resetWith_default_mem]; rfl

/-- Settles O1: reset writes the glyph table over a state whose fields are read off, and memory is read byte by byte. -/
theorem resetState : Obligations.ResetState := by
  refine ⟨reset_eq_resetWith, fun c => ?_⟩
  obtain ⟨reg, i, pc, dt, st, key, aw, rs, fr, cfg⟩ := resetWith_fields c
  obtain ⟨-, read⟩ := resetWith_memory c
  exact ⟨reg, i, pc, resetWith_sp c, dt, st, key, aw, rs, fr, cfg,
    fun a inTable => (read a).trans (dif_pos inTable), fun a above => (read a).trans (dif_neg (by omega))⟩

/-- Settles O57: the machine's reset state is the one of the default configuration. -/
theorem resetMeetsInvariant : Obligations.ResetMeetsInvariant :=
  ⟨reset_eq_resetWith ▸ resetWith_inv defaultConfig, resetWith_inv⟩

/-- R34: a loader write, at any 12-bit address, keeps memory canonical. -/
theorem loadByte_inv {s : State} (hs : s.Inv) (a : Addr12) (b : Byte) : (loadByte a b s).Inv := by
  obtain ⟨hm, inBounds, latched⟩ := hs
  exact ⟨writeByte_wf hm (Nat.le_of_lt_succ a.isLt) b, inBounds, latched⟩

/-- Settles O59: O58 for a step, and for the ports: a key change touches the keys alone, a load one byte, and a reset is
reset whatever came before. -/
theorem hostEventKeepsInvariant : Obligations.HostEventKeepsInvariant := by
  intro e s t hs h
  cases e with
  | step => exact stepKeepsInvariant s t hs h
  | keySet k b => injection h with h; exact h ▸ hs
  | load a b => injection h with h; exact h ▸ loadByte_inv hs a b
  | reset => injection h with h; exact h ▸ resetWith_inv s.cfg

end Sys2Proof.Proofs
end

section
/-! The memory frame (R51): each writer of memory stores inside the bytes `mayWrite` gives it, and the other instructions
store nothing. O54. -/

namespace Sys2Proof.Proofs

open Sys2Proof.Machine Sys2Proof.Claims Sys2Proof.Laws

/-- R174: the screen row the blitter draws a sprite row at is one the statements let it land at. -/
theorem lands_of_rowPlace {cfg : Config} {y0 r y : Nat} (h : rowPlace cfg (y0 + r) = some y) : Lands cfg y0 r y := by
  rw [rowPlace] at h
  split_ifs at h with onScreen
  · exact .inl ⟨onScreen, (Option.some.inj h).symm⟩
  · refine .inr ⟨by omega, ?_⟩
    split at h
    case h_1 | h_3 => cases h
    case h_2 wrap => exact .inl ⟨wrap, (Option.some.inj h).symm⟩
    case h_4 unchecked => exact .inr ⟨unchecked, (Option.some.inj h).symm⟩

section Writers

variable {s t : State} {a : Nat}

theorem writeBytes_readByte_outside (hm : Memory.wf s.mem) {base : Nat} {bs : List Byte}
    (bound : base + bs.length ≤ 0x1000) (out : ¬ (base ≤ a ∧ a < base + bs.length)) :
    (s.writeBytes base bs).readByte a = s.readByte a :=
  ((writeBytes_spec hm bound).2 a).trans (dif_neg out)

/-- R60: under every font policy, FX33 and FX55 store inside their range only. -/
theorem storeBytes_readByte_outside (hm : Memory.wf s.mem) {base : Nat} {bs : List Byte}
    (bound : base + bs.length ≤ 0x1000) (out : ¬ (base ≤ a ∧ a < base + bs.length)) :
    (storeBytes s base bs).readByte a = s.readByte a :=
  ((storeBytes_spec hm bound).2 a).trans (dif_neg fun inside => out inside.1)

theorem execCls_readByte (hm : Memory.wf s.mem) (h : execCls s = .next t) (out : ¬ mayWrite .cls s a) :
    t.readByte a = s.readByte a := by
  have high := (displayBase_in_domain s.cfg).2
  rw [completed_next h, advance_readByte]
  exact writeBytes_readByte_outside hm (by simpa using high) (by rwa [zeroBytes_length])

/-- R26, R146: the record of CALL is the two bytes below SP, inside memory since SP does not exceed P_STACK_TOP. -/
theorem execCall_readByte (hs : s.Inv) {nnn : Addr12} (h : execCall nnn s = .next t)
    (out : ¬ mayWrite (.call nnn) s a) : t.readByte a = s.readByte a := by
  obtain ⟨hm, ⟨-, spHigh, -⟩, -⟩ := hs
  rcases execCall_next h with ⟨addr, rfl⟩ | ⟨room, rfl⟩
  · rfl
  · have top := (stackTop_in_domain s.cfg).1
    have sp := toNat_sub_two (w := s.sp) (by omega)
    exact writeBytes_readByte_outside (s := { s with sp := s.sp - 2 }) hm
      (by simp only [List.length_cons, List.length_nil]; omega) out

/-- R173: the checks of DXYN passed, so each pixel drawn lies inside memory, in a byte of a drawn column. -/
theorem execDrw_readByte (hm : Memory.wf s.mem) {x y n : Nibble} (h : execDrw x y n s = .next t)
    (out : ¬ mayWrite (.drw x y n) s a) : t.readByte a = s.readByte a := by
  rw [execDrw] at h
  split at h
  · rw [fatal_next h]; rfl
  · rename_i check
    rw [completed_next h, advance_readByte]
    refine (drawRows_keeps (s := s.setReg regVF 0) hm n.toNat fun r hr z place c hc onScreen => ⟨?_, ?_⟩).2
    · exact spriteCheck_targets check r hr z place c hc onScreen
    · exact fun drawn => out ⟨r, c, z, hr, hc, onScreen, lands_of_rowPlace place, drawn⟩

theorem execLdB_readByte (hm : Memory.wf s.mem) {x : Nibble} (h : execLdB x s = .next t)
    (out : ¬ mayWrite (.ldB x) s a) : t.readByte a = s.readByte a := by
  rw [execLdB] at h
  split at h
  · rw [fatal_next h]; rfl
  · rename_i check
    rw [completed_next h, advance_readByte]
    exact storeBytes_readByte_outside hm (storeCheck_bound (n := 3) (by omega) check) out

theorem execLdMemVx_readByte (hm : Memory.wf s.mem) {x : Nibble} (h : execLdMemVx x s = .next t)
    (out : ¬ mayWrite (.ldMemVx x) s a) : t.readByte a = s.readByte a := by
  rw [execLdMemVx] at h
  split at h
  · rw [fatal_next h]; rfl
  · rename_i check
    have bound := storeCheck_bound (by omega) check
    rw [← regsUpTo_length s x] at bound
    rw [completed_next h, advance_readByte]
    exact storeBytes_readByte_outside hm bound (by rw [regsUpTo_length]; exact out)

end Writers

/-- Settles O54: the five writers of memory store inside their bytes of R51; every other instruction keeps the whole
memory, whether it completes or takes the Fatal. -/
theorem memoryWritesAreTheTable : Obligations.MemoryWritesAreTheTable := by
  intro i s t hs h a out
  have ⟨canonical, _, _⟩ := hs
  by_cases writer : .memory ∈ writesSpecial i
  · rcases writesSpecial_memory writer with rfl | ⟨nnn, rfl⟩ | ⟨x, y, n, rfl⟩ | ⟨x, rfl⟩ | ⟨x, rfl⟩
    · exact execCls_readByte canonical h out
    · exact execCall_readByte hs h out
    · exact execDrw_readByte canonical h out
    · exact execLdB_readByte canonical h out
    · exact execLdMemVx_readByte canonical h out
  · rcases exec_keeps s i t h with ⟨cause, addr, rfl⟩ | keeps
    · rfl
    · rw [State.readByte, keeps.memory writer, State.readByte]

end Sys2Proof.Proofs
end

section
/-! The decoder and the encoder are inverse to each other (30_encoding.md R85 to R95): the round trip of an instruction
(O4), the word of a decoded instruction, and the words that decode to none (O5). -/

namespace Sys2Proof.Proofs

open Sys2Proof.Laws

/-- R85: the NNN format loses nothing of NNN. -/
theorem packNNN_inj {g : Nibble} {a b : Addr12} : packNNN g a = packNNN g b ↔ a = b :=
  ⟨fun h => by simpa using congrArg fieldNNN h, fun h => h ▸ rfl⟩

/-- R89: a SYS is well-formed exactly when its word is neither that of CLS nor that of RET. -/
theorem sys_wf_iff {nnn : Addr12} :
    (Instr.sys nnn).wf = true ↔ packNNN 0x0 nnn ≠ 0x00E0 ∧ packNNN 0x0 nnn ≠ 0x00EE := by
  have cls : packNNN 0x0 nnn = 0x00E0 ↔ nnn = 0x0E0 :=
    packNNN_inj (g := 0x0) (b := 0x0E0)
  have ret : packNNN 0x0 nnn = 0x00EE ↔ nnn = 0x0EE :=
    packNNN_inj (g := 0x0) (b := 0x0EE)
  rw [Ne, Ne, cls, ret, Instr.wf, Bool.and_eq_true, bne_iff_ne, bne_iff_ne]

theorem decodeGroup0_packNNN {nnn : Addr12} (h : (Instr.sys nnn).wf = true) :
    decodeGroup0 (packNNN 0x0 nnn) = .sys nnn := by
  obtain ⟨notCls, notRet⟩ := sys_wf_iff.mp h
  rw [decodeGroup0, if_neg notCls, if_neg notRet, fieldNNN_packNNN]

/-- R85, R86, R88: the fields that select an instruction and its operands are read back from its word. -/
theorem decodeWord_encode (i : Instr) (h : i.wf = true) : decodeWord (encode i) = .ok i :=
  match i with
  | .sys nnn => by rw [encode, decodeWord, fieldG_packNNN]; exact congrArg _ (decodeGroup0_packNNN h)
  | .cls | .ret => rfl
  | .jp _ | .call _ | .ldI _ | .jpV0 _ => by simp [decodeWord, encode]
  | .seImm _ _ | .sneImm _ _ | .ldImm _ _ | .addImm _ _ | .rnd _ _ => by simp [decodeWord, encode]
  | .seReg _ _ _ | .sneReg _ _ _ | .drw _ _ _ => by simp [decodeWord, encode]
  | .ldReg _ _ | .orReg _ _ | .andReg _ _ | .xorReg _ _ | .addReg _ _ | .subReg _ _ | .shr _ _ | .subn _ _
  | .shl _ _ => by
    simp [decodeWord, encode, decodeGroup8]
  | .skp _ | .sknp _ => by simp [decodeWord, encode, decodeGroupE]
  | .ldVxDt _ | .ldVxK _ | .ldDtVx _ | .ldStVx _ | .addI _ | .ldF _ | .ldB _ | .ldMemVx _ | .ldVxMem _ => by
    simp [decodeWord, encode, decodeGroupF]

/-- Settles O4: the group, the selector and the operands of every form are read back from the packed word. -/
theorem decodeOfEncode : Obligations.DecodeOfEncode := decodeWord_encode

/-- `i` is the instruction that `w` stands for (R89, R95). -/
def IsWordOf (i : Instr) (w : Word) : Prop := i.wf = true ∧ encode i = w

section Groups

variable {w : Word} {i : Instr} {u : Undefined}

/-! The words of the forms, put together again from their fields. -/

theorem packNNN_fieldNNN {g : Nibble} (hg : fieldG w = g) : packNNN g (fieldNNN w) = w := hg ▸ packNNN_fields w

theorem packXNN_fieldX {g : Nibble} {nn : Byte} (hg : fieldG w = g) (hnn : fieldNN w = nn) :
    packXNN g (fieldX w) nn = w := hg ▸ hnn ▸ packXNN_fields w

theorem packXYN_fieldXY {g n : Nibble} (hg : fieldG w = g) (hn : fieldN w = n) :
    packXYN g (fieldX w) (fieldY w) n = w := hg ▸ hn ▸ packXYN_fields w

theorem decodeGroup0_isWordOf (hg : fieldG w = 0x0) : IsWordOf (decodeGroup0 w) w := by
  have packed : packNNN 0x0 (fieldNNN w) = w := packNNN_fieldNNN hg
  rw [decodeGroup0]
  split_ifs with isCls isRet
  · exact ⟨rfl, isCls.symm⟩
  · exact ⟨rfl, isRet.symm⟩
  · exact ⟨sys_wf_iff.mpr (packed.symm ▸ ⟨isCls, isRet⟩), packed⟩

theorem decodeGroup8_isWordOf (hg : fieldG w = 0x8) (h : decodeGroup8 w = .ok i) : IsWordOf i w := by
  rw [decodeGroup8] at h
  split at h <;> cases h <;> exact ⟨rfl, packXYN_fieldXY hg ‹_›⟩

theorem decodeGroupE_isWordOf (hg : fieldG w = 0xE) (h : decodeGroupE w = .ok i) : IsWordOf i w := by
  rw [decodeGroupE] at h
  split at h <;> cases h <;> exact ⟨rfl, packXNN_fieldX hg ‹_›⟩

theorem decodeGroupF_isWordOf (hg : fieldG w = 0xF) (h : decodeGroupF w = .ok i) : IsWordOf i w := by
  rw [decodeGroupF] at h
  split at h <;> cases h <;> exact ⟨rfl, packXNN_fieldX hg ‹_›⟩

/-- R90, R94 (b): the seven values of N that select nothing are those the nine of group 8 leave over. -/
theorem mem_unselected8_iff (n : Nibble) : n ∈ ([0x8, 0x9, 0xA, 0xB, 0xC, 0xD, 0xF] : List Nibble) ↔
    n ∉ ([0x0, 0x1, 0x2, 0x3, 0x4, 0x5, 0x6, 0x7, 0xE] : List Nibble) := by
  revert n; decide

/-- R94 (b). -/
theorem decodeGroup8_error : decodeGroup8 w = .error u ↔
    u = .group8 w ∧ fieldN w ∈ ([0x8, 0x9, 0xA, 0xB, 0xC, 0xD, 0xF] : List Nibble) := by
  rw [decodeGroup8, mem_unselected8_iff]
  split <;> simp_all [eq_comm (b := u)]

/-- R94 (c). -/
theorem decodeGroupE_error : decodeGroupE w = .error u ↔
    u = .groupE w ∧ fieldNN w ∉ ([0x9E, 0xA1] : List Byte) := by
  rw [decodeGroupE]
  split <;> simp_all [eq_comm (b := u)]

/-- R94 (d). -/
theorem decodeGroupF_error : decodeGroupF w = .error u ↔
    u = .groupF w ∧ fieldNN w ∉ ([0x07, 0x0A, 0x15, 0x18, 0x1E, 0x29, 0x33, 0x55, 0x65] : List Byte) := by
  rw [decodeGroupF]
  split <;> simp_all [eq_comm (b := u)]

/-- R88: group F is what the first fifteen leave over. -/
theorem eq_F_of_not_mem (g : Nibble) :
    g ∉ ([0x0, 0x1, 0x2, 0x3, 0x4, 0x5, 0x6, 0x7, 0x8, 0x9, 0xA, 0xB, 0xC, 0xD, 0xE] : List Nibble) → g = 0xF := by
  revert g; decide

theorem decodeWord_group8 (hg : fieldG w = 0x8) : decodeWord w = decodeGroup8 w := by simp [decodeWord, hg]

theorem decodeWord_groupE (hg : fieldG w = 0xE) : decodeWord w = decodeGroupE w := by simp [decodeWord, hg]

theorem decodeWord_groupF (hg : fieldG w = 0xF) : decodeWord w = decodeGroupF w := by simp [decodeWord, hg]

/-- R88, R89: every word outside groups 8, E and F is an instruction. -/
theorem decodeWord_isWordOf_of_ne (h8 : fieldG w ≠ 0x8) (hE : fieldG w ≠ 0xE) (hF : fieldG w ≠ 0xF) :
    ∃ i, decodeWord w = .ok i ∧ IsWordOf i w := by
  rw [decodeWord]
  split
  case h_1 hg => exact ⟨_, rfl, decodeGroup0_isWordOf hg⟩
  case h_2 hg | h_3 hg | h_11 hg | h_12 hg => exact ⟨_, rfl, rfl, packNNN_fieldNNN hg⟩
  case h_4 hg | h_5 hg | h_7 hg | h_8 hg | h_13 hg => exact ⟨_, rfl, rfl, packXNN_fieldX hg rfl⟩
  case h_6 hg | h_10 hg | h_14 hg => exact ⟨_, rfl, rfl, packXYN_fieldXY hg rfl⟩
  case h_9 hg => exact absurd hg h8
  case h_15 hg => exact absurd hg hE
  case h_16 => exact absurd (eq_F_of_not_mem (fieldG w) (by simp_all)) hF

theorem decodeWord_ok (h : decodeWord w = .ok i) : IsWordOf i w := by
  by_cases h8 : fieldG w = 0x8
  · exact decodeGroup8_isWordOf h8 (decodeWord_group8 h8 ▸ h)
  by_cases hE : fieldG w = 0xE
  · exact decodeGroupE_isWordOf hE (decodeWord_groupE hE ▸ h)
  by_cases hF : fieldG w = 0xF
  · exact decodeGroupF_isWordOf hF (decodeWord_groupF hF ▸ h)
  obtain ⟨j, decoded, isWord⟩ := decodeWord_isWordOf_of_ne h8 hE hF
  rw [decoded] at h
  cases h
  exact isWord

/-- R94 (b), (c), (d): the words no row of the table has, each refused by the name of its group. -/
theorem decodeWord_error : decodeWord w = .error u ↔
    (u = .group8 w ∧ fieldG w = 0x8 ∧ fieldN w ∈ ([0x8, 0x9, 0xA, 0xB, 0xC, 0xD, 0xF] : List Nibble)) ∨
    (u = .groupE w ∧ fieldG w = 0xE ∧ fieldNN w ∉ ([0x9E, 0xA1] : List Byte)) ∨
    (u = .groupF w ∧ fieldG w = 0xF ∧
      fieldNN w ∉ ([0x07, 0x0A, 0x15, 0x18, 0x1E, 0x29, 0x33, 0x55, 0x65] : List Byte)) := by
  by_cases h8 : fieldG w = 0x8
  · rw [decodeWord_group8 h8, decodeGroup8_error]; simp [h8]
  by_cases hE : fieldG w = 0xE
  · rw [decodeWord_groupE hE, decodeGroupE_error]; simp [hE]
  by_cases hF : fieldG w = 0xF
  · rw [decodeWord_groupF hF, decodeGroupF_error]; simp [hF]
  obtain ⟨i, decoded, -⟩ := decodeWord_isWordOf_of_ne h8 hE hF
  rw [decoded]
  refine iff_of_false (by simp) ?_
  rintro (⟨-, hg, -⟩ | ⟨-, hg, -⟩ | ⟨-, hg, -⟩)
  exacts [h8 hg, hE hg, hF hg]

end Groups

/-- Settles O5: a decoded instruction is well-formed and packs to the word it came from; conversely O4 decodes the word
of a well-formed one. The words left over are those that groups 8, E and F refuse. -/
theorem everyWordIsOneThing : Obligations.EveryWordIsOneThing :=
  ⟨fun _ i => ⟨decodeWord_ok, fun ⟨wf, word⟩ => word ▸ decodeWord_encode i wf⟩, fun _ _ => decodeWord_error⟩

end Sys2Proof.Proofs
end

section
/-! The step cycle around the fetched word (30_encoding.md R81 to R83): what a step of a running machine is when the word
exists and when it does not, and that no instruction is refused. O6, O7, O60. -/

namespace Sys2Proof.Proofs

open Sys2Proof.Machine Sys2Proof.Claims Sys2Proof.Laws

section Cycle

variable {s t : State}

@[simp] theorem beginStep_pc (s : State) : (beginStep s).pc = s.pc := by rw [beginStep_eq]

/-- R83, R199: the tick at the start of a step. -/
theorem beginStep_timers (s : State) :
    (beginStep s).dt.toNat = (if s.cfg.timerPhase = .beforeExecute then ticked s.dt else s.dt.toNat) ∧
    (beginStep s).st.toNat = (if s.cfg.timerPhase = .beforeExecute then ticked s.st else s.st.toNat) := by
  rw [beginStep]
  split <;> rename_i phase <;> simp [phase, ticked, tickDown_toNat]

/-- R83, R199: the tick at the end of a step. -/
theorem endStep_timers (s : State) :
    (endStep s).dt.toNat = (if s.cfg.timerPhase = .afterExecute then ticked s.dt else s.dt.toNat) ∧
    (endStep s).st.toNat = (if s.cfg.timerPhase = .afterExecute then ticked s.st else s.st.toNat) := by
  rw [endStep]
  split <;> rename_i phase <;> simp [phase, ticked, tickDown_toNat]

theorem commit_next_running (h : t.rs = .running) : commit s (.next t) = .next (endStep t) := by
  simp [commit, h]

theorem commit_next_faulted (h : t.rs = .faulted) : commit s (.next t) = .next (discardStep s t) := by
  simp [commit, h]

/-- R231: a step is committed or discarded, never stopped, where its execute phase answers a next state. -/
theorem commit_answers : ∃ u, commit s (.next t) = .next u := by
  rcases h : t.rs with _ | _
  · exact ⟨_, commit_next_running h⟩
  · exact ⟨_, commit_next_faulted h⟩

/-- R231: a Fatal is discarded to the state before the step, a tick at its start included. -/
theorem discardStep_raiseFatal (cause : Cause) (addr : Nat) :
    discardStep s ((beginStep s).raiseFatal cause addr) = faultedState s cause addr := by
  rw [beginStep_eq]; rfl

/-- R81, R83: the step of a machine that fetches the word of an instruction. -/
theorem step_of_decoded {w : Word} {i : Instr} (hf : Fetches s w) (hd : decodeWord w = .ok i) :
    step s = commit s (exec i (beginStep s)) := by
  obtain ⟨running, inside, bytes⟩ := hf
  have word : fetchWord s = w := BitVec.eq_of_toNat_eq ((wordOfBytes_toNat _ _).trans bytes.symm)
  rw [step_fetched running (by omega), word, dispatch, hd]

end Cycle

/-- Settles O7: the fetch check comes before any other change, so the Fatal is that of the state before the step. -/
theorem fetchOutOfRange : Obligations.FetchOutOfRange := by
  intro s running beyond
  rw [step_running running, fetchAndExecute_outOfRange (by rwa [beginStep_pc]), commit_next_faulted rfl,
    discardStep_raiseFatal, beginStep_pc]

/-- An instruction answers a next state, or it is a CALL whose record would lie outside memory (assumption 8). -/
def AnswersOrOverruns (s : State) (r : Result) : Prop :=
  (∃ t, r = .next t) ∨ (r = .fault .stackOutsideMemory ∧ 0x1000 < s.sp.toNat)

section Answers

variable (s : State)

namespace AnswersOrOverruns

variable {s} in
theorem next {t : State} : AnswersOrOverruns s (.next t) := .inl ⟨t, rfl⟩

theorem unimplemented (w k : Word) : AnswersOrOverruns s (unimplemented w k s) := by
  rcases unimplemented_cases w k s with ⟨-, h⟩ | ⟨-, h⟩ <;> exact .inl ⟨_, h⟩

end AnswersOrOverruns

open AnswersOrOverruns

theorem execRet_answers : AnswersOrOverruns s (execRet s) := by
  rw [execRet]; split <;> exact next

theorem execCall_answers (nnn : Addr12) : AnswersOrOverruns s (execCall nnn s) := by
  rw [execCall]
  split_ifs with overflow outside
  · exact next
  · exact .inr ⟨rfl, outside⟩
  · exact next

theorem execDrw_answers (x y n : Nibble) : AnswersOrOverruns s (execDrw x y n s) := by
  rw [execDrw]; split <;> exact next

theorem execSkp_answers (x : Nibble) : AnswersOrOverruns s (execSkp x s) := by
  rw [execSkp]; split <;> exact next

theorem execSknp_answers (x : Nibble) : AnswersOrOverruns s (execSknp x s) := by
  rw [execSknp]; split <;> exact next

theorem execLdVxK_answers (x : Nibble) : AnswersOrOverruns s (execLdVxK x s) := by
  rw [execLdVxK]
  split
  · split <;> exact next
  · exact next

theorem execLdB_answers (x : Nibble) : AnswersOrOverruns s (execLdB x s) := by
  rw [execLdB]; split <;> exact next

theorem execLdMemVx_answers (x : Nibble) : AnswersOrOverruns s (execLdMemVx x s) := by
  rw [execLdMemVx]; split <;> exact next

theorem execLdVxMem_answers (x : Nibble) : AnswersOrOverruns s (execLdVxMem x s) := by
  rw [execLdVxMem]; split <;> exact next

theorem exec_answers (i : Instr) : AnswersOrOverruns s (exec i s) :=
  match i with
  | .sys _ => unimplemented s _ _
  | .ret => execRet_answers s
  | .call nnn => execCall_answers s nnn
  | .drw x y n => execDrw_answers s x y n
  | .skp x => execSkp_answers s x
  | .sknp x => execSknp_answers s x
  | .ldVxK x => execLdVxK_answers s x
  | .ldB x => execLdB_answers s x
  | .ldMemVx x => execLdMemVx_answers s x
  | .ldVxMem x => execLdVxMem_answers s x
  | .cls | .jp _ | .jpV0 _ | .seImm _ _ | .sneImm _ _ | .seReg _ _ _ | .sneReg _ _ _ => next
  | .ldImm _ _ | .addImm _ _ | .rnd _ _ | .ldReg _ _ | .orReg _ _ | .andReg _ _ | .xorReg _ _ => next
  | .addReg _ _ | .subReg _ _ | .shr _ _ | .subn _ _ | .shl _ _ => next
  | .ldI _ | .addI _ | .ldF _ | .ldVxDt _ | .ldDtVx _ | .ldStVx _ => next

theorem execUndefined_answers (u : Undefined) : AnswersOrOverruns s (execUndefined u s) := by
  cases u <;> exact unimplemented s _ _

theorem fetchAndExecute_answers : AnswersOrOverruns s (fetchAndExecute s) := by
  rw [fetchAndExecute]
  split
  · exact next
  · rw [dispatch]
    split
    · exact exec_answers s _
    · exact execUndefined_answers s _

end Answers

theorem exec_ne_refused (i : Instr) (s : State) (r : Refusal) : exec i s ≠ .refused r := by
  rcases exec_answers s i with ⟨t, h⟩ | ⟨h, -⟩ <;> simp [h]

/-- R26: where SP does not exceed P_STACK_TOP, the execute phase answers a next state. -/
theorem fetchAndExecute_next {s : State} (hs : s.Inv) : ∃ t, fetchAndExecute s = .next t := by
  obtain ⟨-, ⟨-, spHigh, -⟩, -⟩ := hs
  have top := (stackTop_in_domain s.cfg).1
  rcases fetchAndExecute_answers s with answers | ⟨-, overruns⟩
  · exact answers
  · omega

/-- Settles O60: a faulted machine idles, and a running one executes from a state that still meets the invariant. -/
theorem everyStepAnswers : Obligations.EveryStepAnswers := by
  intro s hs
  rcases mode : s.rs with _ | _
  · obtain ⟨t, ht⟩ := fetchAndExecute_next (beginStep_inv hs)
    rw [step_running mode, ht]
    exact commit_answers
  · exact ⟨idleStep s, by simp [step, mode]⟩

/-- Settles O6: the state `b` the instruction runs in is `beginStep s`, and each answer of it is committed, discarded or
passed on. -/
theorem stepRunsDecodedInstruction : Obligations.StepRunsDecodedInstruction := by
  intro s w i fetches decoded
  have stepIs : step s = commit s (exec i (beginStep s)) := step_of_decoded fetches decoded
  obtain ⟨wf, -⟩ := decodeWord_ok decoded
  obtain ⟨beginDt, beginSt⟩ := beginStep_timers s
  refine ⟨wf, beginStep s, beginDt, beginSt, beginStep_eq s, fun t answer running => ?_, fun t answer faulted => ?_,
    fun f answer => ?_, exec_ne_refused i _⟩
  · obtain ⟨endDt, endSt⟩ := endStep_timers t
    exact ⟨endStep t, by rw [stepIs, answer, commit_next_running running], endDt, endSt, endStep_eq t⟩
  · rw [stepIs, answer, commit_next_faulted faulted, discardStep, faulted]
  · rw [stepIs, answer, commit]

end Sys2Proof.Proofs
end

section
/-! The arithmetic and logic of 41_alu.md: the two forms in which these instructions answer, one register written (R111
to R116, R123) or a result and then its flag (R117 to R121), and the values they write, as natural numbers and bits. -/

namespace Sys2Proof.Proofs

open Sys2Proof.Machine Sys2Proof.Claims Sys2Proof.Laws

/-- R85: a word as a rule of 41_alu.md writes it is decoded to the instruction whose encoding it is. -/
theorem decodeWord_of_eq_encode {w : Word} {i : Instr} (wf : i.wf = true) (h : w = encode i) : decodeWord w = .ok i :=
  h ▸ decodeWord_encode i wf

/-- R85: the rules of group 8 write N into the base word, the format XYN writes it last. -/
theorem wordXY_eq_packXYN (g x y n : Nibble) :
    wordXY (g.setWidth 16 <<< 12 ||| n.setWidth 16) x y = packXYN g x y n := by
  simp only [wordXY, packXYN]
  ac_rfl

section Answers

variable {s t : State} {r : Result}

/-- R110: where no special part, status or draw changed, only the registers listed did. -/
theorem KeepsBut.onlyRegs {ds : List Nibble} (h : KeepsBut ds [] s t) (status : t.status = s.status)
    (draws : t.draws = s.draws) : OnlyRegs ds s t := by
  obtain ⟨regs, index, stackPointer, delayTimer, soundTimer, awaitingKey, memory, system⟩ := h
  have kept {p : Special} : p ∉ ([] : List Special) := List.not_mem_nil
  exact ⟨regs, fun a => congrArg (Memory.read · a) (memory kept), index kept, stackPointer kept, awaitingKey kept,
    ⟨delayTimer kept, soundTimer kept⟩, system, status, draws⟩

/-- R110: what an instruction that writes one register answers. -/
theorem next_of_completed_setReg {x : Nibble} {b : Byte} (h : r = completed (s.setReg x b)) :
    ∃ t, r = .next t ∧ t.reg x = b ∧ t.pc = s.pc + 2 ∧ OnlyRegs [x] s t := by
  have keeps : KeepsBut [x] [] s ((s.setReg x b).advance 2) := (KeepsBut.refl.setReg (by simp) b).advance 2
  exact ⟨_, h, by simp, rfl, keeps.onlyRegs rfl rfl⟩

/-- R21, R110: what an instruction that writes a result and then a flag answers. -/
theorem next_of_completed_setRegAndFlag {x : Nibble} {b f : Byte} (h : r = completed (s.setRegAndFlag x b f)) :
    ∃ t, r = .next t ∧ t.pc = s.pc + 2 ∧ OnlyRegs [x, 0xF] s t ∧ (x ≠ 0xF → t.reg x = b) ∧ t.reg 0xF = f := by
  have keeps : KeepsBut [x, 0xF] [] s ((s.setRegAndFlag x b f).advance 2) :=
    (KeepsBut.refl.setRegAndFlag (by simp) (by simp) b f).advance 2
  exact ⟨_, h, rfl, keeps.onlyRegs rfl rfl, fun hx => by simp [setRegAndFlag_reg, show x ≠ regVF from hx],
    by simp [setRegAndFlag_reg, regVF]⟩

end Answers

/-! The values written. -/

/-- R118, R120: the difference modulo 256, with the borrow added first. -/
theorem toNat_sub_byte (a b : Byte) : (a - b).toNat = (a.toNat + 256 - b.toNat) % 256 := by
  rw [BitVec.toNat_sub]
  omega

/-- R119, R121: the source that P_SHIFT_SOURCE chooses. -/
theorem shiftSource_eq_shiftOperand (s : State) (x y : Nibble) : shiftSource s x y = shiftOperand s x y := by
  rw [shiftSource, shiftOperand]
  cases s.cfg.shiftSource <;> rfl

theorem toNat_shiftRight_one (src : Byte) : (src >>> 1).toNat = src.toNat / 2 := by
  rw [BitVec.toNat_ushiftRight, Nat.shiftRight_eq_div_pow, Nat.pow_one]

theorem toNat_shiftLeft_one (src : Byte) : (src <<< 1).toNat = src.toNat * 2 % 256 := by
  rw [BitVec.toNat_shiftLeft, Nat.shiftLeft_eq, Nat.pow_one]

theorem shiftRightFlag_toNat (src : Byte) : (shiftRightFlag src).toNat = src.toNat % 2 := by
  rw [shiftRightFlag, BitVec.toNat_and]
  exact Nat.and_one_is_mod _

/-- R121: bit 7 of a byte is set where the byte is at least 128. -/
theorem getLsbD_seven (src : Byte) : src.getLsbD 7 = decide (128 ≤ src.toNat) :=
  src.msb_eq_decide

theorem and_0x80_eq_ite (src : Byte) : src &&& (0x80 : Byte) = if 128 ≤ src.toNat then 0x80 else 0 := by
  have bit : src &&& (0x80 : Byte) = if src.getLsbD 7 then 0x80 else 0 := BitVec.and_twoPow src 7
  rw [bit, getLsbD_seven]
  simp only [decide_eq_true_eq]

theorem shiftRight_seven_and_one_eq_ite (src : Byte) :
    src >>> 7 &&& (0x01 : Byte) = if 128 ≤ src.toNat then 1 else 0 := by
  have bit : src >>> 7 &&& (0x01 : Byte) = if (src >>> 7).getLsbD 0 then 0x01 else 0 := BitVec.and_twoPow (src >>> 7) 0
  rw [bit, BitVec.getLsbD_ushiftRight, getLsbD_seven]
  simp only [decide_eq_true_eq]

theorem shiftLeftFlag_eq (cfg : Config) (src : Byte) :
    shiftLeftFlag cfg src = if 128 ≤ src.toNat then (if cfg.shlFlag = .raw then 0x80 else 1) else 0 := by
  rw [shiftLeftFlag]
  cases cfg.shlFlag with
  | raw => exact and_0x80_eq_ite src
  | normalized => exact shiftRight_seven_and_one_eq_ite src

/-! One register written. -/

/-- Settles O9: VX takes the immediate as it stands. -/
theorem ldImmLoads : Obligations.LdImmLoads := fun _ _ _ =>
  ⟨decodeWord_of_eq_encode rfl rfl, next_of_completed_setReg rfl⟩

/-- Settles O10: the byte sum is the sum modulo 256, and VF is not among the registers written. -/
theorem addImmAdds : Obligations.AddImmAdds := by
  intro s x nn
  obtain ⟨t, answer, result, pc, frame⟩ := next_of_completed_setReg (r := exec (.addImm x nn) s) rfl
  exact ⟨decodeWord_of_eq_encode rfl rfl, t, answer, by rw [result, BitVec.toNat_add], pc, frame⟩

/-- Settles O11: VX takes the value of VY before the write. -/
theorem ldRegMoves : Obligations.LdRegMoves := fun _ x y =>
  ⟨decodeWord_of_eq_encode rfl (wordXY_eq_packXYN 0x8 x y 0x0), next_of_completed_setReg rfl⟩

/-- Settles O12: each bit of the result is the OR of the operands' bits. -/
theorem orRegOrs : Obligations.OrRegOrs := by
  intro s x y
  obtain ⟨t, answer, result, pc, frame⟩ := next_of_completed_setReg (r := exec (.orReg x y) s) rfl
  exact ⟨decodeWord_of_eq_encode rfl (wordXY_eq_packXYN 0x8 x y 0x1), t, answer, pc, frame,
    fun k _ => by rw [result, BitVec.getLsbD_or]⟩

/-- Settles O13: each bit of the result is the AND of the operands' bits. -/
theorem andRegAnds : Obligations.AndRegAnds := by
  intro s x y
  obtain ⟨t, answer, result, pc, frame⟩ := next_of_completed_setReg (r := exec (.andReg x y) s) rfl
  exact ⟨decodeWord_of_eq_encode rfl (wordXY_eq_packXYN 0x8 x y 0x2), t, answer, pc, frame,
    fun k _ => by rw [result, BitVec.getLsbD_and]⟩

/-- Settles O14: each bit of the result is the exclusive OR of the operands' bits. -/
theorem xorRegXors : Obligations.XorRegXors := by
  intro s x y
  obtain ⟨t, answer, result, pc, frame⟩ := next_of_completed_setReg (r := exec (.xorReg x y) s) rfl
  exact ⟨decodeWord_of_eq_encode rfl (wordXY_eq_packXYN 0x8 x y 0x3), t, answer, pc, frame,
    fun k _ => by rw [result, BitVec.getLsbD_xor]⟩

/-- Settles O20: the byte is the step's free draw, and using it up changes nothing the spec names. -/
theorem rndMasksAByte : Obligations.RndMasksAByte := by
  intro s x nn
  have keeps : KeepsBut [x] [] s ((s.setReg x (rand8 s &&& nn)).drawn.advance 2) :=
    (KeepsBut.refl.setReg (by simp) _).drawn.advance 2
  exact ⟨decodeWord_of_eq_encode rfl rfl, _, rfl, ⟨rand8 s, by simp⟩, rfl,
    keeps.regs, fun _ => rfl, rfl, rfl, rfl, ⟨rfl, rfl⟩, keeps.system, rfl⟩

/-! A result and its flag. -/

/-- Settles O15: the byte sum is the sum modulo 256, and the flag, written last, is the carry. -/
theorem addRegAddsWithCarry : Obligations.AddRegAddsWithCarry := by
  intro s x y
  obtain ⟨t, answer, pc, frame, result, flag⟩ := next_of_completed_setRegAndFlag (r := exec (.addReg x y) s) rfl
  exact ⟨decodeWord_of_eq_encode rfl (wordXY_eq_packXYN 0x8 x y 0x4), t, answer, pc, frame,
    fun hx => by rw [result hx, BitVec.toNat_add], flag⟩

/-- Settles O16: the byte difference is the difference modulo 256, and the flag, written last, is no-borrow. -/
theorem subRegSubtracts : Obligations.SubRegSubtracts := by
  intro s x y
  obtain ⟨t, answer, pc, frame, result, flag⟩ := next_of_completed_setRegAndFlag (r := exec (.subReg x y) s) rfl
  exact ⟨decodeWord_of_eq_encode rfl (wordXY_eq_packXYN 0x8 x y 0x5), t, answer, pc, frame,
    fun hx => by rw [result hx, toNat_sub_byte], flag⟩

/-- Settles O17: the shift halves the chosen source, and the flag, written last, is the bit shifted out. -/
theorem shrShiftsRight : Obligations.ShrShiftsRight := by
  intro s x y
  obtain ⟨t, answer, pc, frame, result, flag⟩ := next_of_completed_setRegAndFlag (r := exec (.shr x y) s) rfl
  rw [shiftSource_eq_shiftOperand] at result flag
  exact ⟨decodeWord_of_eq_encode rfl (wordXY_eq_packXYN 0x8 x y 0x6), t, answer, pc, frame,
    fun hx => by rw [result hx, toNat_shiftRight_one], by rw [flag, shiftRightFlag_toNat]⟩

/-- Settles O18: as O16, with minuend and subtrahend exchanged. -/
theorem subnSubtractsReversed : Obligations.SubnSubtractsReversed := by
  intro s x y
  obtain ⟨t, answer, pc, frame, result, flag⟩ := next_of_completed_setRegAndFlag (r := exec (.subn x y) s) rfl
  exact ⟨decodeWord_of_eq_encode rfl (wordXY_eq_packXYN 0x8 x y 0x7), t, answer, pc, frame,
    fun hx => by rw [result hx, toNat_sub_byte], flag⟩

/-- Settles O19: the shift doubles the chosen source modulo 256, and the flag, written last, is its bit 7 in the form of
P_SHL_FLAG. -/
theorem shlShiftsLeft : Obligations.ShlShiftsLeft := by
  intro s x y
  obtain ⟨t, answer, pc, frame, result, flag⟩ := next_of_completed_setRegAndFlag (r := exec (.shl x y) s) rfl
  rw [shiftSource_eq_shiftOperand] at result flag
  exact ⟨decodeWord_of_eq_encode rfl (wordXY_eq_packXYN 0x8 x y 0xE), t, answer, pc, frame,
    fun hx => by rw [result hx, toNat_shiftLeft_one], by rw [flag, shiftLeftFlag_eq]⟩

end Sys2Proof.Proofs
end

section
/-! The jumps and the skips of 42_control_flow.md (R140, R144, R147 to R151), and the words that have no operation: SYS
(R143). O24, O25, O29 to O33. -/

namespace Sys2Proof.Proofs

open Sys2Proof.Machine Sys2Proof.Claims Sys2Proof.Laws

theorem toNat_zext16 (nnn : Addr12) : (zext16 nnn).toNat = nnn.toNat :=
  BitVec.toNat_setWidth_of_le (by decide)

theorem toNat_zextByte (b : Byte) : (zextByte b).toNat = b.toNat :=
  BitVec.toNat_setWidth_of_le (by decide)

/-- R87: NNN is a given address exactly when its widened value is. -/
theorem zext16_eq_iff {nnn : Addr12} {w : Word} : zext16 nnn = w ↔ nnn.toNat = w.toNat := by
  rw [← BitVec.toNat_inj, toNat_zext16]

section Answers

variable {s t : State} {r : Result}

/-- What a frame leaves alone where no timer, status or draw changed. -/
theorem KeepsBut.restKept {ds : List Nibble} {ws : List Special} (h : KeepsBut ds ws s t)
    (noDelay : .delayTimer ∉ ws) (noSound : .soundTimer ∉ ws) (status : t.status = s.status)
    (draws : t.draws = s.draws) : RestKept s t :=
  ⟨⟨h.delayTimer noDelay, h.soundTimer noSound⟩, h.system, status, draws⟩

theorem KeepsBut.memKept {ds : List Nibble} {ws : List Special} (h : KeepsBut ds ws s t) (noMemory : .memory ∉ ws) :
    MemKept s t :=
  fun a => congrArg (Memory.read · a) (h.memory noMemory)

/-- R140: what a skip answers on a condition that decides `p`. -/
theorem next_of_skipIf {cond : Bool} {p : Prop} [Decidable p] (h : r = skipIf s cond) (decides : cond = true ↔ p) :
    ∃ t, r = .next t ∧ t.pc = s.pc + (if p then 4 else 2) ∧ OnlyRegs [] s t := by
  have keeps : KeepsBut [] [] s (s.advance (if cond then 4 else 2)) := KeepsBut.refl.advance _
  exact ⟨_, h, by simp only [advance_pc, decides], keeps.onlyRegs rfl rfl⟩

end Answers

/-! The skips compare bytes; the rules compare their values. -/

theorem beq_iff_toNat_eq (a b : Byte) : (a == b) = true ↔ a.toNat = b.toNat :=
  beq_iff_eq.trans BitVec.toNat_inj.symm

theorem bne_iff_toNat_ne (a b : Byte) : (a != b) = true ↔ a.toNat ≠ b.toNat :=
  bne_iff_ne.trans BitVec.toNat_ne

/-- Settles O29: the skip of R140 on VX = NN. -/
theorem seImmSkips : Obligations.SeImmSkips := fun s x nn =>
  ⟨decodeWord_of_eq_encode rfl rfl, next_of_skipIf rfl (beq_iff_toNat_eq (s.reg x) nn)⟩

/-- Settles O30: the skip of R140 on VX ≠ NN. -/
theorem sneImmSkips : Obligations.SneImmSkips := fun s x nn =>
  ⟨decodeWord_of_eq_encode rfl rfl, next_of_skipIf rfl (bne_iff_toNat_ne (s.reg x) nn)⟩

/-- Settles O31: the skip of R140 on VX = VY; the meaning does not look at N (R93). -/
theorem seRegSkips : Obligations.SeRegSkips := fun s x y _ =>
  ⟨decodeWord_of_eq_encode rfl rfl, next_of_skipIf rfl (beq_iff_toNat_eq (s.reg x) (s.reg y))⟩

/-- Settles O32: the skip of R140 on VX ≠ VY; the meaning does not look at N (R93). -/
theorem sneRegSkips : Obligations.SneRegSkips := fun s x y _ =>
  ⟨decodeWord_of_eq_encode rfl rfl, next_of_skipIf rfl (bne_iff_toNat_ne (s.reg x) (s.reg y))⟩

/-- R151: a 12-bit address and a byte add up below 2^16. -/
theorem toNat_zext16_add_zextByte (nnn : Addr12) (b : Byte) :
    (zext16 nnn + zextByte b).toNat = nnn.toNat + b.toNat := by
  have hn := nnn.isLt
  have hb := b.isLt
  rw [BitVec.toNat_add, toNat_zext16, toNat_zextByte]
  omega

/-- Settles O33: the 16-bit sum does not wrap. -/
theorem jpV0Jumps : Obligations.JpV0Jumps := by
  intro s nnn
  have keeps : KeepsBut [] [] s (s.jump (zext16 nnn + zextByte (s.reg 0))) := KeepsBut.refl.jump _
  exact ⟨decodeWord_of_eq_encode rfl rfl, _, rfl, toNat_zext16_add_zextByte nnn (s.reg 0), keeps.onlyRegs rfl rfl⟩

/-- R144, R145: the jump moves PC and, onto its own address, signals SELF_LOOP. -/
theorem execJp_eq (nnn : Addr12) (s : State) : execJp nnn s =
    .next { s with pc := zext16 nnn, status := if nnn.toNat = s.pc.toNat then .selfLoop else s.status } := by
  simp only [execJp, zext16_eq_iff]
  split <;> rfl

/-- Settles O25: PC and the status are read off `execJp_eq`, and nothing else is written. -/
theorem jpJumps : Obligations.JpJumps := fun s nnn =>
  ⟨decodeWord_of_eq_encode rfl rfl, _, execJp_eq nnn s, toNat_zext16 nnn, rfl, fun _ _ => rfl, fun _ => rfl, rfl, rfl,
    rfl, ⟨rfl, rfl⟩, ⟨rfl, rfl, rfl, rfl⟩, rfl⟩

/-- R85, R143: the word of a SYS is its NNN. -/
theorem encode_sys (nnn : Addr12) : encode (.sys nnn) = zext16 nnn := BitVec.zero_or

/-- R89: a word up to 0x0FFF is the NNN it holds. -/
theorem zext16_setWidth {w : Word} (h : w.toNat ≤ 0x0FFF) : zext16 (w.setWidth 12) = w := by
  rw [zext16_eq_iff, BitVec.toNat_setWidth]
  omega

/-- R89: the words up to 0x0FFF that are neither CLS nor RET are those of SYS. -/
theorem decodeWord_sys {w : Word} (small : w.toNat ≤ 0x0FFF) (notCls : w ≠ 0x00E0) (notRet : w ≠ 0x00EE) :
    decodeWord w = .ok (.sys (w.setWidth 12)) := by
  have word : encode (.sys (w.setWidth 12)) = w := (encode_sys _).trans (zext16_setWidth small)
  have wf : (Instr.sys (w.setWidth 12)).wf = true :=
    sys_wf_iff.mpr ⟨word.trans_ne notCls, word.trans_ne notRet⟩
  exact decodeWord_of_eq_encode wf word.symm

/-- Settles O24: the word is decoded to the SYS of its own value, and P_UNDEFINED chooses between its two answers. -/
theorem sysIsUnimplemented : Obligations.SysIsUnimplemented := by
  intro s w small notCls notRet
  have answer : exec (.sys (w.setWidth 12)) s = unimplemented w 0 s := by
    rw [exec, execSys, zext16_setWidth small]
  refine ⟨_, decodeWord_sys small notCls notRet, fun noop => ?_, fun fault => ?_⟩ <;>
    rw [answer, unimplemented]
  · rw [noop]
    exact ⟨_, rfl, rfl, BitVec.add_zero _, fun _ _ => rfl, fun _ => rfl, rfl, rfl, rfl, ⟨rfl, rfl⟩,
      ⟨rfl, rfl, rfl, rfl⟩, rfl⟩
  · rw [fault]; rfl

end Sys2Proof.Proofs
end

section
/-! The memory and stack operations of 42_control_flow.md: CLS (R141), RET (R142) and CALL (R146), and a CALL followed
by its RET. O22, O23, O27, O28. -/

namespace Sys2Proof.Proofs

open Sys2Proof.Machine Sys2Proof.Claims Sys2Proof.Laws

section Operations

variable {s t : State}

/-! R58: byte writes move no PC, report no status and draw no byte. -/

theorem writeBytes_pc (s : State) (a : Nat) (bs : List Byte) : (s.writeBytes a bs).pc = s.pc :=
  by rw [writeBytes_eq]

theorem writeBytes_status (s : State) (a : Nat) (bs : List Byte) : (s.writeBytes a bs).status = s.status :=
  by rw [writeBytes_eq]

theorem writeBytes_draws (s : State) (a : Nat) (bs : List Byte) : (s.writeBytes a bs).draws = s.draws :=
  by rw [writeBytes_eq]

/-- R10, R56: the value of a word in memory, byte by byte. -/
theorem readWord_toNat (s : State) (a : Nat) :
    (s.readWord a).toNat = (s.readByte a).toNat * 256 + (s.readByte (a + 1)).toNat :=
  wordOfBytes_toNat _ _

/-- R56, R61: a word is read back from where it was written. -/
theorem readWord_writeWord (hm : Memory.wf s.mem) {a : Nat} (inside : a + 2 ≤ 0x1000) (w : Word) :
    (s.writeWord a w).readWord a = w := by
  obtain ⟨-, read⟩ := writeBytes_spec hm (a := a) (bs := [highByte w, lowByte w]) inside
  simp [State.readWord, State.writeWord, read]

theorem writeBytes_memKeptOutside (hm : Memory.wf s.mem) {a n : Nat} {bs : List Byte} (length : bs.length = n)
    (inside : a + n ≤ 0x1000) : MemKeptOutside a n s (s.writeBytes a bs) := by
  subst length
  exact fun _ out => writeBytes_readByte_outside hm inside (by omega)

/-- R141: the zero bytes CLS writes are read back. -/
theorem writeBytes_zeroBytes_readByte (hm : Memory.wf s.mem) {a n k : Nat} (inside : a + n ≤ 0x1000) (hk : k < n) :
    (s.writeBytes a (zeroBytes n)).readByte (a + k) = 0 := by
  obtain ⟨-, read⟩ := writeBytes_spec hm (a := a) (bs := zeroBytes n) (by rwa [zeroBytes_length])
  simp [read, hk]

/-- The state of a CALL that completes (R146). -/
def called (nnn : Addr12) (s : State) : State :=
  State.jump ({ s with sp := s.sp - 2 }.writeWord (s.sp - 2).toNat (s.pc + 2)) (zext16 nnn)

/-- R26, R146: what CALL answers, by its check, where SP does not exceed P_STACK_TOP. -/
theorem execCall_eq (nnn : Addr12) (spHigh : s.sp.toNat ≤ s.cfg.stackTop) : execCall nnn s =
    if s.sp.toNat < s.cfg.stackBottom + 2 then .next (faultedState s .stackOverflow s.sp.toNat)
    else .next (called nnn s) := by
  have top := (stackTop_in_domain s.cfg).1
  rw [execCall, if_neg (show ¬ 0x1000 < s.sp.toNat by omega)]
  rfl

theorem called_keeps (nnn : Addr12) (s : State) : KeepsBut [] [.stackPointer, .memory] s (called nnn s) :=
  ((KeepsBut.refl.setSp (by simp) _).writeBytes (by simp) _ _).jump _

/-- R56, R146: the record of CALL is the word of the return address. -/
theorem called_readWord (hm : Memory.wf s.mem) (nnn : Addr12) (inside : (s.sp - 2).toNat + 2 ≤ 0x1000) :
    (called nnn s).readWord (s.sp - 2).toNat = s.pc + 2 :=
  readWord_writeWord (s := { s with sp := s.sp - 2 }) hm inside _

end Operations

/-- Settles O22: CLS writes 256 zero bytes, all inside memory by R7's domain of P_DISPLAY_BASE. -/
theorem clsClears : Obligations.ClsClears := by
  refine ⟨rfl, fun s hm => ?_⟩
  have inside := (displayBase_in_domain s.cfg).2
  have keeps : KeepsBut [] [.memory] s ((s.writeBytes s.cfg.displayBase (zeroBytes 256)).advance 2) :=
    (KeepsBut.refl.writeBytes (by simp) _ _).advance 2
  refine ⟨_, rfl, fun k hk => ?_, by rw [advance_pc, writeBytes_pc], fun a out => ?_, keeps.regs,
    keeps.index (by simp), keeps.stackPointer (by simp), keeps.awaitingKey (by simp),
    keeps.restKept (by simp) (by simp) (by rw [advance_status, writeBytes_status])
      (by rw [advance_draws, writeBytes_draws])⟩
  · rw [advance_readByte]
    exact writeBytes_zeroBytes_readByte hm inside hk
  · rw [advance_readByte]
    exact writeBytes_memKeptOutside hm (zeroBytes_length 256) inside a out

/-- Settles O23: the popped word is read before SP moves, and SP stays within P_STACK_TOP, so it does not wrap. -/
theorem retReturns : Obligations.RetReturns := by
  refine ⟨rfl, fun s => ?_⟩
  rw [exec, execRet]
  split
  · rfl
  · have top := (stackTop_in_domain s.cfg).1
    have sp : (s.sp + 2).toNat = s.sp.toNat + 2 := BitVec.toNat_add_of_lt (by simp; omega)
    exact ⟨_, rfl, readWord_toNat s _, sp, fun _ _ => rfl, fun _ => rfl, rfl, rfl, ⟨rfl, rfl⟩, ⟨rfl, rfl, rfl, rfl⟩,
      rfl, rfl⟩

/-- Settles O27: with SP at most P_STACK_TOP the record lies inside memory, and it reads as the return address. -/
theorem callCalls : Obligations.CallCalls := by
  refine fun s nnn hm spHigh => ⟨decodeWord_of_eq_encode rfl rfl, ?_⟩
  rw [exec, execCall_eq nnn spHigh]
  split
  · rfl
  · have top := (stackTop_in_domain s.cfg).1
    have sp : (s.sp - 2).toNat = s.sp.toNat - 2 := toNat_sub_two (by omega)
    have keeps := called_keeps nnn s
    have inside : (s.sp - 2).toNat + 2 ≤ 0x1000 := by omega
    have record := readWord_toNat (called nnn s) (s.sp - 2).toNat
    rw [called_readWord hm nnn inside, sp, show s.sp.toNat - 2 + 1 = s.sp.toNat - 1 by omega] at record
    refine ⟨_, rfl, sp, record.symm, toNat_zext16 nnn, ?_, keeps.regs, rfl, rfl,
      keeps.restKept (by simp) (by simp) rfl rfl⟩
    rw [← sp]
    exact writeBytes_memKeptOutside (s := { s with sp := s.sp - 2 }) hm rfl inside

/-- Settles O28: RET reads the record where CALL wrote it, and SP rises to where it was, at most P_STACK_TOP. -/
theorem callThenReturn : Obligations.CallThenReturn := by
  rintro s t nnn ⟨hm, ⟨-, spHigh, -⟩, -⟩ - answer completes
  rcases execCall_next answer with ⟨addr, rfl⟩ | ⟨room, rfl⟩
  · cases completes
  · have top := (stackTop_in_domain s.cfg).1
    have sp : (s.sp - 2).toNat + 2 = s.sp.toNat := by rw [toNat_sub_two (by omega)]; omega
    have record := called_readWord hm nnn (by omega)
    refine ⟨_, if_neg ?_, record, BitVec.sub_add_cancel s.sp 2, completes⟩
    show ¬ s.cfg.stackTop < (s.sp - 2).toNat + 2
    omega

end Sys2Proof.Proofs
end

section
/-! The status a step reports (R234): which instruction signals which status, and the advisory SELF_LOOP of a jump to
its own address (R145). O26. -/

namespace Sys2Proof.Proofs

open Sys2Proof.Machine Sys2Proof.Claims Sys2Proof.Laws

/-- The status an instruction may signal (R143, R145, R204). -/
def signals : Instr → List Status
  | .sys _ => [.unimplemented]
  | .jp _ => [.selfLoop]
  | .ldVxK _ => [.waiting]
  | _ => []

/-- A next state that `r` answers reports what `s` reports, FATAL, or one of `ps`. -/
def Reports (ps : List Status) (s : State) (r : Result) : Prop :=
  ∀ t, r = .next t → t.status = s.status ∨ t.status = .fatal ∨ t.status ∈ ps

section Reports

variable {ps : List Status} {s t : State}

namespace Reports

theorem kept (h : t.status = s.status) : Reports ps s (.next t) := by
  rintro _ ⟨⟩; exact .inl h

theorem completed (h : t.status = s.status) : Reports ps s (completed t) := kept h

theorem signalled (h : t.status ∈ ps) : Reports ps s (.next t) := by
  rintro _ ⟨⟩; exact .inr (.inr h)

theorem fatal (cause : Cause) (addr : Nat) : Reports ps s (fatal s cause addr) := by
  rintro _ ⟨⟩; exact .inr (.inl rfl)

theorem unimplemented (h : .unimplemented ∈ ps) (w k : Word) : Reports ps s (unimplemented w k s) := by
  rcases unimplemented_cases w k s with ⟨-, answer⟩ | ⟨-, answer⟩ <;> rw [answer]
  · exact signalled h
  · exact fatal _ _

end Reports

end Reports

section Instructions

variable (s : State)

open Reports

theorem storeBytes_status (a : Nat) (bs : List Byte) : (storeBytes s a bs).status = s.status := by
  rw [storeBytes_eq]

theorem loadRegs_status (a n : Nat) : (loadRegs s a n).status = s.status := by
  rw [loadRegs_eq]

theorem drawRows_status (x0 y0 n : Nat) : (drawRows x0 y0 n s).status = s.status := by
  obtain ⟨only, -⟩ := drawRows_touches x0 y0 n s
  rw [only]

theorem execRet_reports : Reports [] s (execRet s) := by
  rw [execRet]
  split
  · exact fatal _ _
  · exact kept rfl

theorem execJp_reports (nnn : Addr12) : Reports [.selfLoop] s (execJp nnn s) := by
  rw [execJp]
  split
  · exact signalled (by simp)
  · exact kept rfl

theorem execCall_reports (nnn : Addr12) : Reports [] s (execCall nnn s) := by
  rw [execCall]
  split_ifs
  · exact fatal _ _
  · exact fun _ h => nomatch h
  · exact kept rfl

theorem execDrw_reports (x y n : Nibble) : Reports [] s (execDrw x y n s) := by
  rw [execDrw]
  split
  · exact fatal _ _
  · exact completed (drawRows_status (s.setReg regVF 0) _ _ _)

theorem execSkp_reports (x : Nibble) : Reports [] s (execSkp x s) := by
  rw [execSkp]
  split
  · exact fatal _ _
  · exact kept rfl

theorem execSknp_reports (x : Nibble) : Reports [] s (execSknp x s) := by
  rw [execSknp]
  split
  · exact fatal _ _
  · exact kept rfl

theorem execLdVxK_reports (x : Nibble) : Reports [.waiting] s (execLdVxK x s) := by
  rw [execLdVxK]
  split
  · split
    · exact kept rfl
    · exact signalled (by simp)
  · exact signalled (by simp)

theorem execLdB_reports (x : Nibble) : Reports [] s (execLdB x s) := by
  rw [execLdB]
  split
  · exact fatal _ _
  · exact completed (storeBytes_status s _ _)

theorem execLdMemVx_reports (x : Nibble) : Reports [] s (execLdMemVx x s) := by
  rw [execLdMemVx]
  split
  · exact fatal _ _
  · exact completed (storeBytes_status s _ _)

theorem execLdVxMem_reports (x : Nibble) : Reports [] s (execLdVxMem x s) := by
  rw [execLdVxMem]
  split
  · exact fatal _ _
  · exact completed (loadRegs_status s _ _)

theorem execUndefined_reports (u : Undefined) : Reports [.unimplemented] s (execUndefined u s) := by
  cases u <;> exact unimplemented (by simp) _ _

/-- R234: an instruction reports the status it signals, FATAL, or what was reported before it. -/
theorem exec_reports (i : Instr) : Reports (signals i) s (exec i s) :=
  match i with
  | .sys _ => unimplemented (by simp [signals]) _ _
  | .cls => completed (writeBytes_status s _ _)
  | .ret => execRet_reports s
  | .jp nnn => execJp_reports s nnn
  | .call nnn => execCall_reports s nnn
  | .drw x y n => execDrw_reports s x y n
  | .skp x => execSkp_reports s x
  | .sknp x => execSknp_reports s x
  | .ldVxK x => execLdVxK_reports s x
  | .ldB x => execLdB_reports s x
  | .ldMemVx x => execLdMemVx_reports s x
  | .ldVxMem x => execLdVxMem_reports s x
  | .jpV0 _ | .seImm _ _ | .sneImm _ _ | .seReg _ _ _ | .sneReg _ _ _ => kept rfl
  | .ldImm _ _ | .addImm _ _ | .rnd _ _ | .ldReg _ _ | .orReg _ _ | .andReg _ _ | .xorReg _ _ => kept rfl
  | .addReg _ _ | .subReg _ _ | .shr _ _ | .subn _ _ | .shl _ _ => kept rfl
  | .ldI _ | .addI _ | .ldF _ | .ldVxDt _ | .ldDtVx _ | .ldStVx _ => kept rfl

end Instructions

section SelfLoop

variable {s t : State}

/-- R145: only a jump to its own address turns another status into SELF_LOOP. -/
theorem exec_selfLoop {i : Instr} (h : exec i s = .next t) (before : s.status ≠ .selfLoop)
    (reported : t.status = .selfLoop) : ∃ nnn, i = .jp nnn ∧ nnn.toNat = s.pc.toNat := by
  rcases exec_reports s i t h with same | isFatal | signalled
  · exact absurd (same.symm.trans reported) before
  · simp [reported] at isFatal
  · have isJump : ∃ nnn, i = .jp nnn := by
      rw [reported] at signalled
      cases i <;> simp [signals] at signalled ⊢
    obtain ⟨nnn, rfl⟩ := isJump
    refine ⟨nnn, rfl, by_contra fun other => before ?_⟩
    rw [exec, execJp_eq, if_neg other] at h
    injection h with h
    rwa [← h] at reported

theorem beginStep_status (s : State) : (beginStep s).status = .ok := by rw [beginStep_eq]

/-- R81: the bytes of the fetched word stand at PC. -/
theorem fetches_fetchWord (running : s.rs = .running) (inside : s.pc.toNat ≤ 0xFFE) : Fetches s (fetchWord s) :=
  ⟨running, by omega, readWord_toNat s _⟩

/-- R145: an execute phase that reports SELF_LOOP has fetched a jump to its own address. -/
theorem fetchAndExecute_selfLoop (h : fetchAndExecute s = .next t) (before : s.status ≠ .selfLoop)
    (reported : t.status = .selfLoop) : s.pc.toNat ≤ 0xFFE ∧
      ∃ nnn, fetchWord s = wordNNN 0x1000 nnn ∧ nnn.toNat = s.pc.toNat := by
  by_cases inside : s.pc.toNat ≤ 0xFFE
  · refine ⟨inside, ?_⟩
    rw [fetchAndExecute_ok inside, dispatch] at h
    split at h
    · rename_i i decoded
      obtain ⟨nnn, rfl, own⟩ := exec_selfLoop h before reported
      obtain ⟨-, word⟩ := decodeWord_ok decoded
      exact ⟨nnn, word.symm, own⟩
    · rename_i u _
      rcases execUndefined_reports s u t h with same | isFatal | signalled
      · exact absurd (same.symm.trans reported) before
      · simp [reported] at isFatal
      · simp [reported] at signalled
  · rw [fetchAndExecute_outOfRange (by omega)] at h
    injection h with h
    simp [← h] at reported

/-- R145: a step that reports SELF_LOOP is a jump to its own address. -/
theorem step_selfLoop (h : step s = .next t) (reported : t.status = .selfLoop) :
    ∃ nnn, Fetches s (wordNNN 0x1000 nnn) ∧ nnn.toNat = s.pc.toNat := by
  rcases step_next h with ⟨-, rfl⟩ | ⟨running, u, answer, finish⟩
  · cases reported
  · have status : u.status = .selfLoop := by
      rcases finish with ⟨-, rfl⟩ | ⟨-, rfl⟩
      · rwa [endStep_eq] at reported
      · exact reported
    have before : (beginStep s).status ≠ .selfLoop := by rw [beginStep_status]; decide
    obtain ⟨inside, nnn, word, own⟩ := fetchAndExecute_selfLoop answer before status
    rw [beginStep_pc] at inside own
    have fetched : fetchWord s = wordNNN 0x1000 nnn := by rw [← word, beginStep_eq]; rfl
    exact ⟨nnn, fetched ▸ fetches_fetchWord running inside, own⟩

/-- R199: in either phase, a step that leaves the timers to the cycle ticks them once. -/
theorem step_ticks_once (cfg : t.cfg = s.cfg) (dt : t.dt = (beginStep s).dt) (st : t.st = (beginStep s).st) :
    (endStep t).dt.toNat = ticked s.dt ∧ (endStep t).st.toNat = ticked s.st := by
  obtain ⟨beginDt, beginSt⟩ := beginStep_timers s
  obtain ⟨endDt, endSt⟩ := endStep_timers t
  rw [← dt] at beginDt
  rw [← st] at beginSt
  rw [endDt, endSt, cfg]
  cases phase : s.cfg.timerPhase <;> simp_all [ticked]

/-- R83, R145: the step of a jump to its own address. -/
theorem step_of_selfJump {nnn : Addr12} (fetches : Fetches s (wordNNN 0x1000 nnn)) (own : nnn.toNat = s.pc.toNat) :
    step s = .next (endStep ((beginStep s).signal .selfLoop)) := by
  have ⟨running, _, _⟩ := fetches
  rw [← beginStep_pc s] at own
  rw [step_of_decoded fetches (decodeWord_of_eq_encode (i := .jp nnn) rfl rfl), exec, execJp_eq, if_pos own,
    zext16_eq_iff.mpr own]
  exact commit_next_running (by rwa [beginStep_eq])

end SelfLoop

/-- Settles O26: the jump leaves all but the status and the ticked timers, and `step_selfLoop` is the converse. -/
theorem selfLoopIsAdvisory : Obligations.SelfLoopIsAdvisory := by
  refine ⟨fun s nnn fetches own => ?_, fun _ _ => step_selfLoop⟩
  have ⟨running, _, _⟩ := fetches
  obtain ⟨dt, st⟩ :=
    step_ticks_once (s := s) (t := (beginStep s).signal .selfLoop) (by rw [beginStep_eq]; rfl) rfl rfl
  refine ⟨_, step_of_selfJump fetches own, ?_, ?_, ?_, dt, st, ?_, ?_⟩ <;> rw [endStep_eq]
  · rfl
  · rwa [beginStep_eq]
  · exact beginStep_pc s
  · rw [beginStep_eq]; exact fun _ _ => rfl
  · rw [beginStep_eq]; exact fun _ => rfl

end Sys2Proof.Proofs
end

section
/-! The sprite draw of 43_display.md: the three checks of DXYN (R173), the XOR draw with its collision flag (R174 to
R176), and a draw made twice (R177). O34, O35. -/

namespace Sys2Proof.Proofs

open Sys2Proof.Machine Sys2Proof.Claims Sys2Proof.Laws

/-- R174: where the blitter draws a sprite row is where the statements let it land. -/
theorem rowPlace_eq_some_iff {cfg : Config} {y0 r y : Nat} : rowPlace cfg (y0 + r) = some y ↔ Lands cfg y0 r y := by
  refine ⟨lands_of_rowPlace, ?_⟩
  rintro (⟨onScreen, rfl⟩ | ⟨offScreen, ⟨policy, rfl⟩ | ⟨policy, rfl⟩⟩)
  · exact if_pos onScreen
  · rw [rowPlace, if_neg (by omega), policy]
  · rw [rowPlace, if_neg (by omega), policy]

section Checks

variable {s t : State} {x0 y0 n m : Nat}

/-! R173, R236: each check reports exactly where its fault is. -/

theorem spriteReadCheck_of_fault (h : DrwReadFault s n) :
    spriteReadCheck s n = some (.readOutOfRange, if 0xFFF < s.i.toNat then s.i.toNat else 0x1000) := by
  obtain ⟨anyRow, beyond⟩ := h
  rw [spriteReadCheck, outOfRange, if_pos ⟨anyRow, beyond⟩]

theorem spriteReadCheck_eq_none (h : ¬ DrwReadFault s n) : spriteReadCheck s n = none := by
  rw [spriteReadCheck, outOfRange, if_neg fun ⟨anyRow, beyond⟩ => h ⟨anyRow, beyond⟩]

theorem spriteRowCheck_of_fault (h : DrwRowFault s y0 n) :
    spriteRowCheck s.cfg y0 n = some (.spriteRowOutOfRange, max y0 32) := by
  obtain ⟨policy, beyond⟩ := h
  rw [spriteRowCheck, policy]
  exact if_pos beyond

theorem spriteRowCheck_eq_none (h : ¬ DrwRowFault s y0 n) : spriteRowCheck s.cfg y0 n = none := by
  rw [spriteRowCheck]
  split
  case h_1 policy => exact if_neg fun beyond => h ⟨policy, beyond⟩
  case h_2 | h_3 | h_4 => rfl

theorem spriteWriteCheck_of_fault {r c : Nat} (h : DrwWriteFault s x0 y0 n r c) :
    spriteWriteCheck s.cfg x0 y0 n = some (.writeOutOfRange, drwTarget s x0 y0 r c) := by
  obtain ⟨policy, hr, hc, onScreen, beyond, first⟩ := h
  have found := spriteTargets_find (n := n) hr hc onScreen beyond first
  simp only [spriteWriteCheck, policy, found, drwTarget, pixelAddr]

/-- R173: some position beyond memory means a first one: numbered 8 * r + c, the positions go row by row and column by
column. -/
theorem exists_drwWriteFault (policy : s.cfg.vertical = .unchecked) {r c : Nat} (hr : r < n) (hc : c < 8)
    (onScreen : x0 + c < 64) (beyond : 0xFFF < drwTarget s x0 y0 r c) : ∃ r c, DrwWriteFault s x0 y0 n r c := by
  have ofNumber (r c : Nat) (hc : c < 8) : (8 * r + c) / 8 = r ∧ (8 * r + c) % 8 = c := by omega
  have someNumber : ∃ k, k / 8 < n ∧ x0 + k % 8 < 64 ∧ 0xFFF < drwTarget s x0 y0 (k / 8) (k % 8) := by
    obtain ⟨row, column⟩ := ofNumber r c hc
    exact ⟨8 * r + c, by rw [row, column]; exact ⟨hr, onScreen, beyond⟩⟩
  obtain ⟨rowIn, columnIn, firstBeyond⟩ := Nat.find_spec someNumber
  refine ⟨_, _, policy, rowIn, Nat.mod_lt _ (by omega), columnIn, firstBeyond, fun r' c' hc' onScreen' earlier => ?_⟩
  by_contra beyond'
  obtain ⟨row, column⟩ := ofNumber r' c' hc'
  refine Nat.find_min someNumber (m := 8 * r' + c') (by omega) ?_
  rw [row, column]
  exact ⟨by omega, onScreen', by omega⟩

theorem spriteWriteCheck_eq_none (h : ∀ r c, ¬ DrwWriteFault s x0 y0 n r c) :
    spriteWriteCheck s.cfg x0 y0 n = none := by
  rw [spriteWriteCheck]
  split
  case h_1 policy =>
    have inside : (spriteTargets s.cfg x0 y0 n).find? (fun a => decide (0xFFF < a)) = none := by
      rw [List.find?_eq_none]
      intro a ha beyond
      simp only [spriteTargets, List.mem_flatMap, List.mem_map, List.mem_filter, List.mem_range,
        decide_eq_true_eq] at ha beyond
      obtain ⟨r, hr, c, ⟨hc, onScreen⟩, rfl⟩ := ha
      obtain ⟨r, c, fault⟩ := exists_drwWriteFault policy hr hc onScreen beyond
      exact h r c fault
    rw [inside]
  case h_2 | h_3 | h_4 => rfl

/-- R173, R236: where none of the three faults is, every check passes. -/
theorem spriteCheck_eq_none (read : ¬ DrwReadFault s n) (row : ¬ DrwRowFault s y0 n)
    (write : ∀ r c, ¬ DrwWriteFault s x0 y0 n r c) : spriteCheck s x0 y0 n = none := by
  rw [spriteCheck, spriteReadCheck_eq_none read, spriteRowCheck_eq_none row, spriteWriteCheck_eq_none write]
  rfl

/-! A draw of fewer rows has no fault that the whole draw has not. -/

theorem drwReadFault_mono (le : m ≤ n) (h : DrwReadFault s m) : DrwReadFault s n := by
  obtain ⟨anyRow, beyond⟩ := h
  exact ⟨by omega, by omega⟩

theorem drwRowFault_mono (le : m ≤ n) (h : DrwRowFault s y0 m) : DrwRowFault s y0 n := by
  obtain ⟨policy, anyRow, beyond⟩ := h
  exact ⟨policy, by omega, by omega⟩

theorem drwWriteFault_mono (le : m ≤ n) {r c : Nat} (h : DrwWriteFault s x0 y0 m r c) :
    DrwWriteFault s x0 y0 n r c := by
  obtain ⟨policy, hr, rest⟩ := h
  exact ⟨policy, by omega, rest⟩

/-- R173: the checks look at I and the configuration alone. -/
theorem spriteCheck_congr (index : t.i = s.i) (cfg : t.cfg = s.cfg) :
    spriteCheck t x0 y0 n = spriteCheck s x0 y0 n := by
  simp only [spriteCheck, spriteReadCheck, index, cfg]

end Checks

section Draw

variable {s t : State} {x y n : Nibble}

/-- R173: the checks of DXYN pass. -/
def DrwPasses (x y n : Nibble) (s : State) : Prop := spriteCheck s (s.reg x).toNat (s.reg y).toNat n.toNat = none

/-- The state of a DXYN that completes (R173). -/
def drew (x y n : Nibble) (s : State) : State :=
  (drawRows (s.reg x).toNat (s.reg y).toNat n.toNat (s.setReg regVF 0)).advance 2

theorem exec_drw_passes (h : DrwPasses x y n s) : exec (.drw x y n) s = .next (drew x y n s) := by
  rw [exec, execDrw, h]
  rfl

theorem exec_drw_fails {cause : Cause} {addr : Nat}
    (h : spriteCheck s (s.reg x).toNat (s.reg y).toNat n.toNat = some (cause, addr)) :
    exec (.drw x y n) s = .next (faultedState s cause addr) := by
  rw [exec, execDrw, h]
  rfl

/-- R231: a DXYN that leaves the machine running drew its sprite. -/
theorem exec_drw_running (h : exec (.drw x y n) s = .next t) (running : t.rs = .running) :
    DrwPasses x y n s ∧ t = drew x y n s := by
  cases check : spriteCheck s (s.reg x).toNat (s.reg y).toNat n.toNat with
  | none => exact ⟨check, by injection h.symm.trans (exec_drw_passes check)⟩
  | some fault =>
    injection h.symm.trans (exec_drw_fails (cause := fault.1) (addr := fault.2) check) with h
    rw [h] at running
    cases running

/-! What a draw leaves alone (R173). -/

theorem drew_keeps (x y n : Nibble) (s : State) : KeepsBut [0xF] [.memory] s (drew x y n s) :=
  ((KeepsBut.refl.setReg (by simp [regVF]) 0).drawRows (by simp) (by simp) _ _ _).advance 2

theorem drew_pc (x y n : Nibble) (s : State) : (drew x y n s).pc = s.pc + 2 := by
  rw [drew, advance_pc, (drawRows_touches _ _ _ _).only, setReg_pc]

theorem drew_status (x y n : Nibble) (s : State) : (drew x y n s).status = s.status := by
  rw [drew, advance_status, drawRows_status, setReg_status]

theorem drew_draws (x y n : Nibble) (s : State) : (drew x y n s).draws = s.draws := by
  rw [drew, advance_draws, (drawRows_touches _ _ _ _).only, setReg_draws]

theorem drew_cfg (x y n : Nibble) (s : State) : (drew x y n s).cfg = s.cfg := by
  obtain ⟨-, -, -, cfg⟩ := (drew_keeps x y n s).system
  exact cfg

/-- The byte of sprite row r, as the first r rows of the draw left it (R176). -/
def spriteRow (x y : Nibble) (s : State) (r : Nat) : Byte :=
  (drew x y (BitVec.ofNat 4 r) s).readByte (s.i.toNat + r)

theorem spriteRow_eq_spriteByte {r : Nat} (hr : r < n.toNat) :
    spriteRow x y s r = spriteByte (s.reg x).toNat (s.reg y).toNat (s.setReg regVF 0) r := by
  have small : (BitVec.ofNat 4 r).toNat = r := Nat.mod_eq_of_lt (by have := n.isLt; omega)
  rw [spriteRow, drew, small]
  rfl

/-- The sprite with row bytes `row` at (x0, y0) was drawn from `s` to `t` (R173 to R175): its bits toggle pixels, and VF
tells of a collision. -/
structure SpriteDrawn (s t : State) (x0 y0 n : Nat) (row : Nat → Byte) : Prop where
  wf : Memory.wf t.mem
  cfg : t.cfg = s.cfg
  toggled : ∀ {r z px}, r < n → Lands s.cfg y0 r z → px < 64 →
    pixel t px z = (pixel s px z ^^ rowBit x0 8 (row r) px)
  kept : ∀ {z px}, (∀ r < n, ¬ Lands s.cfg y0 r z) → px < 64 → pixel t px z = pixel s px z
  below : ∀ a, a < s.cfg.displayBase → t.readByte a = s.readByte a
  collided : Collides s x0 y0 n row → t.reg 0xF = 1
  missed : ¬ Collides s x0 y0 n row → t.reg 0xF = 0

/-- R175: the blitter's hits are the collisions of the statements; resetting VF moves no pixel. -/
theorem spriteHit_iff_collides {x0 y0 n : Nat} {row : Nat → Byte}
    (rows : ∀ r < n, row r = spriteByte x0 y0 (s.setReg regVF 0) r) :
    spriteHit x0 y0 n (s.setReg regVF 0) ↔ Collides s x0 y0 n row := by
  constructor
  · rintro ⟨r, hr, z, place, c, hc, onScreen, bit, set⟩
    exact ⟨r, c, z, hr, hc, rowPlace_eq_some_iff.mp place, onScreen, by rwa [rows r hr], set⟩
  · rintro ⟨r, c, z, hr, hc, lands, onScreen, bit, set⟩
    exact ⟨r, hr, z, rowPlace_eq_some_iff.mpr lands, c, hc, onScreen, by rwa [← rows r hr], set⟩

/-- R173 to R176: a draw whose checks pass draws its sprite. -/
theorem drew_spriteDrawn (hm : Memory.wf s.mem) (check : DrwPasses x y n s) {row : Nat → Byte}
    (rows : ∀ r < n.toNat, row r = spriteRow x y s r) :
    SpriteDrawn s (drew x y n s) (s.reg x).toNat (s.reg y).toNat n.toNat row := by
  obtain ⟨blits, onRow, offRow, hit, miss⟩ := drawRows_spec (s := s.setReg regVF 0) hm n.toNat
    (by have := n.isLt; omega) (spriteCheck_targets check)
  have bytes r (hr : r < n.toNat) := (rows r hr).trans (spriteRow_eq_spriteByte hr)
  refine ⟨blits.wf, drew_cfg x y n s, fun hr lands onScreen => ?_, fun noRow onScreen => ?_, blits.below,
    fun c => hit ((spriteHit_iff_collides bytes).mpr c), fun c => ?_⟩
  · rw [bytes _ hr]
    exact onRow _ hr _ (rowPlace_eq_some_iff.mpr lands) _ onScreen
  · exact offRow _ (fun r hr place => noRow r hr (rowPlace_eq_some_iff.mp place)) _ onScreen
  · exact (miss fun h => c ((spriteHit_iff_collides bytes).mp h)).trans (setReg_reg_same s regVF 0)

end Draw

/-- Settles O34: each check by its fault, the frame by `drew_keeps`, and the draw by `drew_spriteDrawn`. -/
theorem drwDraws : Obligations.DrwDraws := by
  refine fun s x y n hm => ⟨decodeWord_of_eq_encode rfl rfl,
    fun read => ?_, fun read row => ?_, fun read r c write => ?_, fun read row write => ?_⟩
  · exact exec_drw_fails (by rw [spriteCheck, spriteReadCheck_of_fault read]; rfl)
  · exact exec_drw_fails (by rw [spriteCheck, spriteReadCheck_eq_none read, spriteRowCheck_of_fault row]; rfl)
  · have noRow : ¬ DrwRowFault s (s.reg y).toNat n.toNat := fun ⟨policy, _⟩ => nomatch policy.symm.trans write.1
    exact exec_drw_fails (by
      rw [spriteCheck, spriteReadCheck_eq_none read, spriteRowCheck_eq_none noRow, spriteWriteCheck_of_fault write]
      rfl)
  · have drawn := drew_spriteDrawn hm (spriteCheck_eq_none read row write) fun _ _ => rfl
    have keeps := drew_keeps x y n s
    refine ⟨_, spriteRow x y s, exec_drw_passes (spriteCheck_eq_none read row write), fun r hr => ⟨_, ?_, rfl⟩,
      fun _ _ _ => drawn.toggled, fun _ _ => drawn.kept,
      drawn.below, drawn.collided, drawn.missed, drew_pc x y n s, keeps.regs, keeps.index (by simp),
      keeps.stackPointer (by simp), keeps.awaitingKey (by simp),
      keeps.restKept (by simp) (by simp) (drew_status x y n s) (drew_draws x y n s)⟩
    have fewer : (BitVec.ofNat 4 r).toNat ≤ n.toNat := (Nat.mod_le r _).trans hr.le
    exact exec_drw_passes (spriteCheck_eq_none (mt (drwReadFault_mono fewer) read) (mt (drwRowFault_mono fewer) row)
      fun r c => mt (drwWriteFault_mono fewer) (write r c))

section Twice

variable {s t u : State} {x y n : Nibble}

/-- R176: a sprite byte that is none of the bytes the draw may change is read as it stood before the draw. -/
theorem spriteRow_eq_readByte (hm : Memory.wf s.mem) (check : DrwPasses x y n s) {r : Nat} (hr : r < n.toNat)
    (out : ¬ mayWrite (.drw x y n) s (s.i.toNat + r)) : spriteRow x y s r = s.readByte (s.i.toNat + r) := by
  rw [spriteRow_eq_spriteByte hr]
  refine (drawRows_keeps (s := s.setReg regVF 0) hm r fun r' hr' z place c hc onScreen => ⟨?_, fun drawn => ?_⟩).2
  · exact spriteCheck_targets check r' (by omega) z place c hc onScreen
  · exact out ⟨r', c, z, by omega, hc, onScreen, lands_of_rowPlace place, drawn⟩

/-- R171: from P_DISPLAY_BASE on, memory is its pixels. -/
theorem readByte_eq_of_pixels (cfg : t.cfg = s.cfg) (below : ∀ a, a < s.cfg.displayBase → t.readByte a = s.readByte a)
    (pixels : ∀ px z, px < 64 → pixel t px z = pixel s px z) (a : Nat) : t.readByte a = s.readByte a := by
  by_cases low : a < s.cfg.displayBase
  · exact below a low
  · obtain ⟨k, rfl⟩ := Nat.exists_eq_add_of_le (Nat.le_of_not_lt low)
    refine BitVec.eq_of_getLsbD_eq fun j hj => ?_
    have bit := pixels (8 * (k % 8) + (7 - j)) (k / 8) (by omega)
    have place : s.cfg.displayBase + 8 * (k / 8) + (8 * (k % 8) + (7 - j)) / 8 = s.cfg.displayBase + k := by omega
    have column : 7 - (8 * (k % 8) + (7 - j)) % 8 = j := by omega
    rwa [pixel_eq, pixel_eq, cfg, pixelAddr, place, column] at bit

namespace SpriteDrawn

variable {x0 y0 n : Nat} {row : Nat → Byte}

/-- R177: what one draw toggles, the same draw toggles back. -/
theorem pixel_twice (h : SpriteDrawn s t x0 y0 n row) (k : SpriteDrawn t u x0 y0 n row) {px : Nat} (z : Nat)
    (onScreen : px < 64) : pixel u px z = pixel s px z := by
  by_cases landed : ∃ r < n, Lands s.cfg y0 r z
  · obtain ⟨r, hr, lands⟩ := landed
    rw [k.toggled hr (h.cfg ▸ lands) onScreen, h.toggled hr lands onScreen, Bool.xor_assoc, Bool.xor_self,
      Bool.xor_false]
  · have noRow : ∀ r < n, ¬ Lands s.cfg y0 r z := fun r hr lands => landed ⟨r, hr, lands⟩
    rw [k.kept (h.cfg ▸ noRow) onScreen, h.kept noRow onScreen]

/-- R177: the same draw again gives back every byte of memory. -/
theorem readByte_twice (h : SpriteDrawn s t x0 y0 n row) (k : SpriteDrawn t u x0 y0 n row) (a : Nat) :
    u.readByte a = s.readByte a :=
  readByte_eq_of_pixels (k.cfg.trans h.cfg) (fun a low => (k.below a (h.cfg ▸ low)).trans (h.below a low))
    (fun _ z onScreen => h.pixel_twice k z onScreen) a

/-- R175, R177: the sprite meets a set pixel after its draw exactly where the draw lit a clear one. -/
theorem collides_iff_lit (h : SpriteDrawn s t x0 y0 n row) :
    Collides t x0 y0 n row ↔ ∃ px z, px < 64 ∧ pixel s px z = false ∧ pixel t px z = true := by
  constructor
  · rintro ⟨r, c, z, hr, hc, lands, onScreen, bit, set⟩
    refine ⟨x0 + c, z, onScreen, ?_, set⟩
    have drawnBit : rowBit x0 8 (row r) (x0 + c) = true := by simp [rowBit, hc, bit]
    rw [h.toggled hr (h.cfg ▸ lands) onScreen, drawnBit] at set
    simpa using set
  · rintro ⟨px, z, onScreen, clear, set⟩
    by_contra apart
    have dark (r : Nat) (hr : r < n) (lands : Lands s.cfg y0 r z) : False := by
      have drawnBit : rowBit x0 8 (row r) px = true := by
        rwa [h.toggled hr lands onScreen, clear, Bool.false_xor] at set
      simp only [rowBit, Bool.and_eq_true, decide_eq_true_eq] at drawnBit
      obtain ⟨⟨left, right⟩, bit⟩ := drawnBit
      have column : x0 + (px - x0) = px := by omega
      exact apart ⟨r, px - x0, z, hr, by omega, h.cfg.symm ▸ lands, by omega, bit, by rwa [column]⟩
    rw [h.kept dark onScreen, clear] at set
    cases set

end SpriteDrawn

end Twice

/-- Settles O35: the place is the same since X and Y are not F, and so are the sprite's bytes, so both draws draw one
sprite. -/
theorem drawingTwiceRestores : Obligations.DrawingTwiceRestores := by
  intro s t x y n hm _ notFlagX notFlagY answer running apart
  obtain ⟨check, drawn⟩ := exec_drw_running answer running
  have keeps : KeepsBut [0xF] [.memory] s t := drawn ▸ drew_keeps x y n s
  obtain ⟨-, -, -, cfg⟩ := keeps.system
  have index : t.i = s.i := keeps.index (by simp)
  have regX : t.reg x = s.reg x := keeps.regs x (by simpa using notFlagX)
  have regY : t.reg y = s.reg y := keeps.regs y (by simpa using notFlagY)
  have first : SpriteDrawn s t (s.reg x).toNat (s.reg y).toNat n.toNat fun r => s.readByte (s.i.toNat + r) :=
    drawn ▸ drew_spriteDrawn hm check fun r hr => (spriteRow_eq_readByte hm check hr (apart r hr)).symm
  have again : DrwPasses x y n t := by rw [DrwPasses, spriteCheck_congr index cfg, regX, regY]; exact check
  have second := drew_spriteDrawn first.wf again (row := fun r => s.readByte (s.i.toNat + r)) fun r hr => by
    rw [spriteRow_eq_readByte first.wf again hr, index]
    · exact (execDrw_readByte hm answer (apart r hr)).symm
    · simp only [mayWrite, index, cfg, regX, regY]
      exact apart r hr
  rw [regX, regY] at second
  refine ⟨_, exec_drw_passes again, ?_, first.readByte_twice second, fun lit => ?_, fun dark => ?_⟩
  · obtain ⟨-, runState, -, -⟩ := (drew_keeps x y n t).system
    exact runState.trans running
  · exact second.collided (first.collides_iff_lit.mpr lit)
  · refine second.missed fun collides => ?_
    obtain ⟨px, z, onScreen, clear, set⟩ := first.collides_iff_lit.mp collides
    cases (dark px z onScreen clear).symm.trans set

end Sys2Proof.Proofs
end

section
/-! The index register (44_timer_key_index.md R190 to R192) and the memory transfers through it (R193 to R195), with
their checks of R55 and R60. O36 to O41. -/

namespace Sys2Proof.Proofs

open Sys2Proof.Machine Sys2Proof.Claims Sys2Proof.Laws

/-- R85: the rules of groups E and F write NN into the base word, the format XNN writes it last. -/
theorem wordX_eq_packXNN (g x : Nibble) (nn : Byte) :
    wordX (g.setWidth 16 <<< 12 ||| nn.setWidth 16) x = packXNN g x nn := by
  simp only [wordX, packXNN]
  ac_rfl

section IndexValues

variable {s : State} {r : Result}

/-- What an instruction that writes I alone answers. -/
theorem next_of_completed_setI {a : Word} {n : Nat} (h : r = completed (s.setI a)) (value : a.toNat = n) :
    ∃ t, r = .next t ∧ t.i.toNat = n ∧ t.pc = s.pc + 2 ∧ RegsKeptBut [] s t ∧ MemKept s t ∧ t.sp = s.sp ∧
      t.aw = s.aw ∧ RestKept s t := by
  have keeps : KeepsBut [] [.index] s ((s.setI a).advance 2) := (KeepsBut.refl.setI (by simp) a).advance 2
  exact ⟨_, h, value, rfl, keeps.regs, keeps.memKept (by simp), keeps.stackPointer (by simp),
    keeps.awaitingKey (by simp), keeps.restKept (by simp) (by simp) rfl rfl⟩

/-- R191: the widened value is added modulo 2^16. -/
theorem toNat_add_zextByte (a : Word) (b : Byte) : (a + zextByte b).toNat = (a.toNat + b.toNat) % 2 ^ 16 := by
  rw [BitVec.toNat_add, toNat_zextByte]

/-- R192: five times a byte does not wrap in 16 bits. -/
theorem toNat_zextByte_mul_five (b : Byte) : (zextByte b * 5).toNat = b.toNat * 5 := by
  have hb := b.isLt
  rw [BitVec.toNat_mul, toNat_zextByte]
  exact Nat.mod_eq_of_lt (show b.toNat * 5 < 2 ^ 16 by omega)

/-- R194, R195: I moves on by X + 1, modulo 2^16. -/
theorem advanceI_toNat (x : Nibble) (s : State) :
    (advanceI x s).i.toNat = (s.i.toNat + x.toNat + 1) % 2 ^ 16 := by
  have hx : (x.setWidth 16).toNat = x.toNat := BitVec.toNat_setWidth_of_le (by decide)
  rw [advanceI, setI_i, BitVec.toNat_add, BitVec.toNat_add, hx, Nat.mod_add_mod]
  rfl

end IndexValues

/-- Settles O36: I takes the address widened by zeros. -/
theorem ldILoads : Obligations.LdILoads := fun _ nnn =>
  ⟨decodeWord_of_eq_encode rfl rfl, next_of_completed_setI rfl (toNat_zext16 nnn)⟩

/-- Settles O37: the 16-bit sum is the sum modulo 2^16, and no register is written. -/
theorem addIAdds : Obligations.AddIAdds := fun s x =>
  ⟨decodeWord_of_eq_encode rfl (wordX_eq_packXNN 0xF x 0x1E),
    next_of_completed_setI rfl (toNat_add_zextByte s.i (s.reg x))⟩

/-- Settles O38: the product with the whole value of VX does not wrap. -/
theorem ldFPointsAtGlyph : Obligations.LdFPointsAtGlyph := fun s x =>
  ⟨decodeWord_of_eq_encode rfl (wordX_eq_packXNN 0xF x 0x29),
    next_of_completed_setI rfl (toNat_zextByte_mul_five (s.reg x))⟩

section Transfers

variable {s : State}

/-! The checks on the `m + 1` bytes from `a` on, as R193 to R195 write them: by the last of these bytes. -/

theorem outOfRange_succ (a m : Nat) :
    outOfRange a (m + 1) = if a + m > 0xFFF then some (if a > 0xFFF then a else 0x1000) else none := by
  simp [outOfRange, ← Nat.add_assoc]

theorem fontCheck_succ (cfg : Config) (a m : Nat) :
    fontCheck cfg a (m + 1) = if cfg.fontWrite = .fault ∧ a < 0x050 then some a else none := by
  rw [fontCheck]
  cases cfg.fontWrite <;> simp

/-- R193, R194, R236: WRITE_OUT_OF_RANGE is checked before FONT_WRITE. -/
theorem storeCheck_succ (cfg : Config) (a m : Nat) : storeCheck cfg a (m + 1) =
    if a + m > 0xFFF then some (.writeOutOfRange, if a > 0xFFF then a else 0x1000)
    else if cfg.fontWrite = .fault ∧ a < 0x050 then some (.fontWrite, a)
    else none := by
  rw [storeCheck, outOfRange_succ, fontCheck_succ]
  split_ifs <;> rfl

/-! What FX33 and FX55 store. -/

theorem dropped_iff {cfg : Config} {a : Nat} : dropped cfg a = true ↔ cfg.fontWrite = .ignore ∧ a < 0x050 := by
  rw [dropped]
  cases cfg.fontWrite <;> simp

/-- R60: each byte of the sequence is stored in its place as the font policy says. -/
theorem storeBytes_storedAs (hm : Memory.wf s.mem) {a : Nat} {bs : List Byte} (inside : a + bs.length ≤ 0x1000)
    {k : Nat} (hk : k < bs.length) : StoredAs s (storeBytes s a bs) (a + k) bs[k] := by
  obtain ⟨-, read⟩ := storeBytes_spec hm inside
  rw [StoredAs, read]
  split
  next isDropped => exact dif_neg fun ⟨_, kept⟩ => by simp [dropped_iff.mpr isDropped] at kept
  next isKept => simp [hk, mt dropped_iff.mp isKept]

theorem storeBytes_memKeptOutside (hm : Memory.wf s.mem) {a n : Nat} {bs : List Byte} (length : bs.length = n)
    (inside : a + n ≤ 0x1000) : MemKeptOutside a n s (storeBytes s a bs) := by
  subst length
  exact fun _ out => storeBytes_readByte_outside hm inside (by omega)

theorem storeBytes_i (s : State) (a : Nat) (bs : List Byte) : (storeBytes s a bs).i = s.i := by
  rw [storeBytes_eq]

theorem storeBytes_pc (s : State) (a : Nat) (bs : List Byte) : (storeBytes s a bs).pc = s.pc := by
  rw [storeBytes_eq]

theorem storeBytes_draws (s : State) (a : Nat) (bs : List Byte) : (storeBytes s a bs).draws = s.draws := by
  rw [storeBytes_eq]

/-- R193: the digits of the byte are those of its value. -/
theorem bcdDigits_eq (v : Byte) : bcdDigits v =
    [BitVec.ofNat 8 (v.toNat / 100), BitVec.ofNat 8 (v.toNat / 10 % 10), BitVec.ofNat 8 (v.toNat % 10)] := by
  have hundreds : v / 100 = BitVec.ofNat 8 (v.toNat / 100) := BitVec.udiv_def
  have tens : v / 10 % 10 = BitVec.ofNat 8 (v.toNat / 10 % 10) := BitVec.eq_of_toNat_eq (by simp; omega)
  have ones : v % 10 = BitVec.ofNat 8 (v.toNat % 10) := BitVec.umod_def
  rw [bcdDigits, hundreds, tens, ones]

/-- R193: the digits are stored from `a` on, hundreds first. -/
theorem storeBytes_bcdDigits (hm : Memory.wf s.mem) {a : Nat} (inside : a + 3 ≤ 0x1000) (v : Byte) :
    StoredAs s (storeBytes s a (bcdDigits v)) a (BitVec.ofNat 8 (v.toNat / 100)) ∧
    StoredAs s (storeBytes s a (bcdDigits v)) (a + 1) (BitVec.ofNat 8 (v.toNat / 10 % 10)) ∧
    StoredAs s (storeBytes s a (bcdDigits v)) (a + 2) (BitVec.ofNat 8 (v.toNat % 10)) := by
  rw [bcdDigits_eq]
  exact ⟨storeBytes_storedAs hm inside (k := 0) (by simp), storeBytes_storedAs hm inside (k := 1) (by simp),
    storeBytes_storedAs hm inside (k := 2) (by simp)⟩

/-- R194: the `k`-th byte stored is Vk. -/
theorem regsUpTo_getElem (s : State) {x k : Nibble} (h : k.toNat < (regsUpTo s x).length) :
    (regsUpTo s x)[k.toNat] = s.reg k := by
  rw [regsUpTo_get, BitVec.ofNat_toNat, BitVec.setWidth_eq]

/-! What FX65 loads. -/

theorem loadRegs_i (s : State) (a n : Nat) : (loadRegs s a n).i = s.i := by rw [loadRegs_eq]

theorem loadRegs_pc (s : State) (a n : Nat) : (loadRegs s a n).pc = s.pc := by rw [loadRegs_eq]

theorem loadRegs_draws (s : State) (a n : Nat) : (loadRegs s a n).draws = s.draws := by rw [loadRegs_eq]

end Transfers

/-- Settles O39: the two checks in their order, then the three digits, each stored as the font policy says. -/
theorem ldBStoresDigits : Obligations.LdBStoresDigits := by
  refine fun s x hm => ⟨decodeWord_of_eq_encode rfl (wordX_eq_packXNN 0xF x 0x33), ?_⟩
  rw [exec, execLdB, storeCheck_succ _ _ 2]
  split
  · rfl
  split
  · rfl
  · have inside : s.i.toNat + 3 ≤ 0x1000 := by omega
    have keeps : KeepsBut [] [.memory] s ((storeBytes s s.i.toNat (bcdDigits (s.reg x))).advance 2) :=
      (KeepsBut.refl.storeBytes (by simp) _ _).advance 2
    obtain ⟨hundreds, tens, ones⟩ := storeBytes_bcdDigits hm inside (s.reg x)
    exact ⟨_, rfl, hundreds, tens, ones, congrArg (· + 2) (storeBytes_pc s _ _),
      storeBytes_memKeptOutside hm rfl inside, keeps.regs, keeps.index (by simp),
      keeps.stackPointer (by simp), keeps.awaitingKey (by simp),
      keeps.restKept (by simp) (by simp) (storeBytes_status s _ _) (storeBytes_draws s _ _)⟩

/-- Settles O40: the two checks in their order, then V0 to VX, each stored as the font policy says; I moves last. -/
theorem ldMemVxDumps : Obligations.LdMemVxDumps := by
  refine fun s x hm => ⟨decodeWord_of_eq_encode rfl (wordX_eq_packXNN 0xF x 0x55), ?_⟩
  rw [exec, execLdMemVx, storeCheck_succ]
  split
  · rfl
  split
  · rfl
  · have length := regsUpTo_length s x
    have inside : s.i.toNat + (x.toNat + 1) ≤ 0x1000 := by omega
    have keeps : KeepsBut [] [.index, .memory] s ((advanceI x (storeBytes s s.i.toNat (regsUpTo s x))).advance 2) :=
      ((KeepsBut.refl.storeBytes (by simp) _ _).setI (by simp) _).advance 2
    refine ⟨_, rfl, fun k hk => ?_, ?_, congrArg (· + 2) (storeBytes_pc s _ _),
      storeBytes_memKeptOutside hm length inside, keeps.regs, keeps.stackPointer (by simp),
      keeps.awaitingKey (by simp),
      keeps.restKept (by simp) (by simp) (storeBytes_status s _ _) (storeBytes_draws s _ _)⟩
    · have inList : k.toNat < (regsUpTo s x).length := by omega
      rw [← regsUpTo_getElem s inList]
      exact storeBytes_storedAs hm (by rwa [length]) inList
    · rw [advance_i, advanceI_toNat, storeBytes_i]

/-- Settles O41: the check, then V0 to VX from memory as it stands; I moves last. -/
theorem ldVxMemLoads : Obligations.LdVxMemLoads := by
  refine fun s x => ⟨decodeWord_of_eq_encode rfl (wordX_eq_packXNN 0xF x 0x65), ?_⟩
  rw [exec, execLdVxMem, outOfRange_succ]
  split
  · rfl
  · have keeps : KeepsBut (writesRegs (.ldVxMem x)) [.index] s
        ((advanceI x (loadRegs s s.i.toNat (x.toNat + 1))).advance 2) :=
      ((KeepsBut.refl.loadRegs _ x.isLt fun _ => mem_regsThrough).setI (by simp) _).advance 2
    refine ⟨_, rfl, fun k => ?_, ?_, congrArg (· + 2) (loadRegs_pc s _ _), keeps.memKept (by simp),
      keeps.stackPointer (by simp), keeps.awaitingKey (by simp),
      keeps.restKept (by simp) (by simp) (loadRegs_status s _ _) (loadRegs_draws s _ _)⟩
    · simp only [← Nat.lt_succ_iff]
      exact loadRegs_reg s _ _ x.isLt k
    · rw [advance_i, advanceI_toNat, loadRegs_i]

end Sys2Proof.Proofs
end

section
/-! The timers (44_timer_key_index.md R196 to R199) through the execute phase and through the tick of the step cycle.
O42 to O45. -/

namespace Sys2Proof.Proofs

open Sys2Proof.Machine Sys2Proof.Claims Sys2Proof.Laws

section Timers

variable {s t : State} {w : Word}

/-! R83: what the cycle leaves alone around the execute phase. -/

@[simp] theorem beginStep_rs (s : State) : (beginStep s).rs = s.rs := by rw [beginStep_eq]

@[simp] theorem beginStep_cfg (s : State) : (beginStep s).cfg = s.cfg := by rw [beginStep_eq]

@[simp] theorem beginStep_reg (s : State) (r : Nibble) : (beginStep s).reg r = s.reg r := by
  rw [beginStep_eq]; rfl

@[simp] theorem endStep_rs (s : State) : (endStep s).rs = s.rs := by rw [endStep_eq]

@[simp] theorem endStep_reg (s : State) (r : Nibble) : (endStep s).reg r = s.reg r := by
  rw [endStep_eq]; rfl

/-! R197, R198: the timer at the end of a step, by its value after the execute phase. -/

theorem endStep_dt_of_eq {b : Byte} (cfg : t.cfg = s.cfg) (value : t.dt = b) :
    (endStep t).dt.toNat = if s.cfg.timerPhase = .afterExecute then ticked b else b.toNat := by
  obtain ⟨tick, -⟩ := endStep_timers t
  rwa [cfg, value] at tick

theorem endStep_st_of_eq {b : Byte} (cfg : t.cfg = s.cfg) (value : t.st = b) :
    (endStep t).st.toNat = if s.cfg.timerPhase = .afterExecute then ticked b else b.toNat := by
  obtain ⟨-, tick⟩ := endStep_timers t
  rwa [cfg, value] at tick

/-! R199: in either phase, a timer that the execute phase leaves to the cycle is ticked once, whatever it does to the
other. -/

theorem endStep_dt_ticked (cfg : t.cfg = s.cfg) (kept : t.dt = (beginStep s).dt) :
    (endStep t).dt.toNat = ticked s.dt := by
  obtain ⟨tick, -⟩ := beginStep_timers s
  rw [endStep_dt_of_eq cfg kept, ticked, tick]
  cases s.cfg.timerPhase <;> rfl

theorem endStep_st_ticked (cfg : t.cfg = s.cfg) (kept : t.st = (beginStep s).st) :
    (endStep t).st.toNat = ticked s.st := by
  obtain ⟨-, tick⟩ := beginStep_timers s
  rw [endStep_st_of_eq cfg kept, ticked, tick]
  cases s.cfg.timerPhase <;> rfl

/-- R81, R83: the step of a machine that fetches `w`. -/
theorem step_of_fetches (fetches : Fetches s w) : step s = commit s (dispatch w (beginStep s)) := by
  obtain ⟨running, inside, bytes⟩ := fetches
  have word : fetchWord s = w := BitVec.eq_of_toNat_eq ((readWord_toNat s _).trans bytes.symm)
  rw [step_fetched running (by omega), word]

/-- R197, R198, R231: a word that raises no Fatal keeps each timer but the one it sets. -/
theorem dispatch_running (h : dispatch w s = .next t) (running : t.rs = .running) :
    t.cfg = s.cfg ∧ ((∀ x, decodeWord w ≠ .ok (.ldDtVx x)) → t.dt = s.dt) ∧
    ((∀ x, decodeWord w ≠ .ok (.ldStVx x)) → t.st = s.st) := by
  rw [dispatch] at h
  split at h
  next i decoded =>
    rw [decoded]
    rcases exec_keeps s i t h with ⟨cause, addr, rfl⟩ | keeps
    · cases running
    · obtain ⟨-, -, -, cfg⟩ := keeps.system
      refine ⟨cfg, fun other => keeps.delayTimer fun writes => ?_, fun other => keeps.soundTimer fun writes => ?_⟩
      · obtain ⟨x, rfl⟩ := writesSpecial_delayTimer writes
        exact other x rfl
      · obtain ⟨x, rfl⟩ := writesSpecial_soundTimer writes
        exact other x rfl
  next u _ =>
    rcases execUndefined_keeps s u t h with ⟨cause, addr, rfl⟩ | keeps
    · cases running
    · obtain ⟨-, -, -, cfg⟩ := keeps.system
      exact ⟨cfg, fun _ => keeps.delayTimer (by simp), fun _ => keeps.soundTimer (by simp)⟩

/-- R83: a step whose instruction completes is committed, with the tick of its phase. -/
theorem step_of_completed {i : Instr} (fetches : Fetches s w) (decoded : decodeWord w = .ok i)
    (answer : exec i (beginStep s) = .next t) (kept : t.rs = (beginStep s).rs) : StepCompletes s (endStep t) := by
  have ⟨running, _, _⟩ := fetches
  have runsOn : t.rs = .running := kept.trans ((beginStep_rs s).trans running)
  exact ⟨by rw [step_of_decoded fetches decoded, answer, commit_next_running runsOn], (endStep_rs t).trans runsOn⟩

end Timers

/-- Settles O45: a discarded step keeps the timers, and in a committed one each timer that the word does not set is left
to the tick of its phase. -/
theorem timersTickOncePerStep : Obligations.TimersTickOncePerStep := by
  intro s t w fetches answer
  rw [step_of_fetches fetches] at answer
  obtain ⟨u, executed, ⟨running, rfl⟩ | ⟨faulted, rfl⟩⟩ := commit_next answer
  · obtain ⟨cfg, dt, st⟩ := dispatch_running executed running
    rw [beginStep_cfg] at cfg
    refine ⟨fun faulted => ?_, fun _ other => endStep_dt_ticked cfg (dt other),
      fun _ other => endStep_st_ticked cfg (st other)⟩
    rw [endStep_rs, running] at faulted
    cases faulted
  · refine ⟨fun _ => ⟨rfl, rfl⟩, fun running => ?_, fun running => ?_⟩ <;> cases faulted.symm.trans running

/-- Settles O42: the instruction copies DT as the start of its phase left it, and DT is left to the tick. -/
theorem ldVxDtReadsTimer : Obligations.LdVxDtReadsTimer := by
  intro s x
  have decoded := decodeWord_of_eq_encode (i := .ldVxDt x) rfl (wordX_eq_packXNN 0xF x 0x07)
  refine ⟨decoded, next_of_completed_setReg rfl, fun fetches => ?_⟩
  obtain ⟨answer, running⟩ := step_of_completed fetches decoded rfl rfl
  obtain ⟨beginDt, -⟩ := beginStep_timers s
  refine ⟨_, answer, running, endStep_dt_ticked (beginStep_cfg s) rfl, ?_⟩
  rw [endStep_reg, advance_reg, setReg_reg_same, beginDt]
  cases s.cfg.timerPhase <;> rfl

/-- Settles O43: the instruction sets DT after any tick at the start of its step, so only the tick at the end counts. -/
theorem ldDtVxSetsTimer : Obligations.LdDtVxSetsTimer := by
  intro s x
  have decoded := decodeWord_of_eq_encode (i := .ldDtVx x) rfl (wordX_eq_packXNN 0xF x 0x15)
  refine ⟨decoded, ⟨_, rfl, rfl, rfl, fun _ _ => rfl, fun _ => rfl, rfl, rfl, rfl, rfl, ⟨rfl, rfl, rfl, rfl⟩, rfl, rfl⟩,
    fun fetches => ?_⟩
  obtain ⟨answer, running⟩ := step_of_completed fetches decoded rfl rfl
  exact ⟨_, answer, running, endStep_dt_of_eq (beginStep_cfg s) (beginStep_reg s x)⟩

/-- Settles O44: the instruction sets ST after any tick at the start of its step, so only the tick at the end counts. -/
theorem ldStVxSetsTimer : Obligations.LdStVxSetsTimer := by
  intro s x
  have decoded := decodeWord_of_eq_encode (i := .ldStVx x) rfl (wordX_eq_packXNN 0xF x 0x18)
  refine ⟨decoded, ⟨_, rfl, rfl, rfl, fun _ _ => rfl, fun _ => rfl, rfl, rfl, rfl, rfl, ⟨rfl, rfl, rfl, rfl⟩, rfl, rfl⟩,
    fun fetches => ?_⟩
  obtain ⟨answer, running⟩ := step_of_completed fetches decoded rfl rfl
  exact ⟨_, answer, running, endStep_st_of_eq (beginStep_cfg s) (beginStep_reg s x)⟩

end Sys2Proof.Proofs
end

section
/-! The key skips and the key wait of 44_timer_key_index.md (R201 to R204). O46 to O48. -/

namespace Sys2Proof.Proofs

open Sys2Proof.Machine Sys2Proof.Claims Sys2Proof.Laws

section Keys

variable {s : State} {x k : Nibble} {cfg : Config} {v : Byte}

/-! R203: the key index, or its Fatal. -/

theorem keyIndex_eq_none (bad : BadKeyIndex cfg v) : keyIndex cfg v = none := by
  obtain ⟨above, policy⟩ := bad
  rw [keyIndex, if_neg (by omega), policy]

theorem keyIndex_eq_some (good : ¬ BadKeyIndex cfg v) :
    keyIndex cfg v = some (v.setWidth 4) ∧ IsKeyIndex cfg v (v.setWidth 4) := by
  have lowNibble : (v.setWidth 4).toNat = v.toNat % 16 := BitVec.toNat_setWidth 4 v
  rw [keyIndex]
  split
  next inside => exact ⟨rfl, .inl ⟨inside, by omega⟩⟩
  next above =>
    split
    next policy => exact absurd ⟨by omega, policy⟩ good
    next policy => exact ⟨rfl, .inr ⟨by omega, policy, lowNibble⟩⟩

/-! R204: the least pressed key, from the keys themselves. -/

theorem firstPressed_eq_none (noKey : ∀ k, s.key k = false) : firstPressed s = none := by
  cases found : firstPressed s with
  | none => rfl
  | some k =>
    obtain ⟨pressed, -⟩ := firstPressed_some found
    cases (noKey k).symm.trans pressed

theorem firstPressed_eq_some (pressed : s.key k = true) (least : ∀ j : Nibble, j.toNat < k.toNat → s.key j = false) :
    firstPressed s = some k := by
  cases found : firstPressed s with
  | none => cases (firstPressed_none found k).symm.trans pressed
  | some j =>
    obtain ⟨pressedJ, leastJ⟩ := firstPressed_some found
    rcases Nat.lt_trichotomy j.toNat k.toNat with below | same | above
    · cases (least j below).symm.trans pressedJ
    · rw [BitVec.eq_of_toNat_eq same]
    · cases (leastJ k above).symm.trans pressed

/-! R204: the three entries of the key wait. -/

theorem execLdVxK_arms (first : s.aw = false) : execLdVxK x s = .next ((s.setAw true).signal .waiting) := by
  simp [execLdVxK, first]

theorem execLdVxK_waits (later : s.aw = true) (noKey : ∀ k, s.key k = false) :
    execLdVxK x s = .next (s.signal .waiting) := by
  simp [execLdVxK, later, firstPressed_eq_none noKey]

theorem execLdVxK_takes (later : s.aw = true) (pressed : s.key k = true)
    (least : ∀ j : Nibble, j.toNat < k.toNat → s.key j = false) :
    execLdVxK x s = completed ((s.setReg x (k.setWidth 8)).setAw false) := by
  simp [execLdVxK, later, firstPressed_eq_some pressed least]

end Keys

/-- Settles O46: the key index rule, then the skip of R140 on the key. -/
theorem skpSkips : Obligations.SkpSkips := by
  refine fun s x => ⟨decodeWord_of_eq_encode rfl (wordX_eq_packXNN 0xE x 0x9E), fun bad => ?_, fun good => ?_⟩
  · rw [exec, execSkp, keyIndex_eq_none bad]; rfl
  · obtain ⟨index, isIndex⟩ := keyIndex_eq_some good
    refine ⟨_, isIndex, next_of_skipIf ?_ Iff.rfl⟩
    rw [exec, execSkp, index]

/-- Settles O47: the key index rule, then the skip of R140 on the key not being pressed. -/
theorem sknpSkips : Obligations.SknpSkips := by
  refine fun s x => ⟨decodeWord_of_eq_encode rfl (wordX_eq_packXNN 0xE x 0xA1), fun bad => ?_, fun good => ?_⟩
  · rw [exec, execSknp, keyIndex_eq_none bad]; rfl
  · obtain ⟨index, isIndex⟩ := keyIndex_eq_some good
    have answer : exec (.sknp x) s = skipIf s (!s.key ((s.reg x).setWidth 4)) := by rw [exec, execSknp, index]
    have skips := next_of_skipIf answer Bool.not_iff_not
    simp only [ite_not] at skips
    exact ⟨_, isIndex, skips⟩

/-- Settles O48: each entry of the key wait by its state. -/
theorem ldVxKWaits : Obligations.LdVxKWaits := by
  refine fun s x => ⟨decodeWord_of_eq_encode rfl (wordX_eq_packXNN 0xF x 0x0A), fun first => ?_,
    fun later noKey => ?_, fun later k pressed least => ?_⟩
  · exact ⟨_, execLdVxK_arms first, rfl, rfl, rfl, fun _ _ => rfl, fun _ => rfl, rfl, rfl, ⟨rfl, rfl⟩,
      ⟨rfl, rfl, rfl, rfl⟩, rfl⟩
  · exact ⟨_, execLdVxK_waits later noKey, later, rfl, rfl, fun _ _ => rfl, fun _ => rfl, rfl, rfl, ⟨rfl, rfl⟩,
      ⟨rfl, rfl, rfl, rfl⟩, rfl⟩
  · have keeps : KeepsBut [x] [.awaitingKey] s (((s.setReg x (k.setWidth 8)).setAw false).advance 2) :=
      ((KeepsBut.refl.setReg (by simp) _).setAw (by simp) _).advance 2
    have taken : (k.setWidth 8).toNat = k.toNat := BitVec.toNat_setWidth_of_le (by decide)
    exact ⟨_, execLdVxK_takes later pressed least, by simpa using taken, rfl, rfl, keeps.regs, keeps.memKept (by simp),
      rfl, rfl, keeps.restKept (by simp) (by simp) rfl rfl⟩

end Sys2Proof.Proofs
end

section
/-! The error model of 60_exceptions.md: an Unimplemented word as a whole step (R235), a Fatal with the parameter that
lets its cause occur (R231, R232), and the faulted machine (R233). O8, O49 to O51. -/

namespace Sys2Proof.Proofs

open Sys2Proof.Machine Sys2Proof.Claims Sys2Proof.Laws

section Unimplemented

variable {s : State} {w : Word}

/-- R94: SYS and the undefined words answer alike, but that PC moves on in group 8 alone. -/
theorem dispatch_unimplemented (h : (∃ nnn, decodeWord w = .ok (.sys nnn)) ∨ (∃ u, decodeWord w = .error u)) :
    dispatch w s = unimplemented w (if fieldG w = 0x8 then 2 else 0) s := by
  rcases h with ⟨nnn, decoded⟩ | ⟨u, undefined⟩
  · obtain ⟨-, word⟩ := decodeWord_ok decoded
    have group : fieldG w = 0x0 := word ▸ fieldG_packNNN 0x0 nnn
    have value : zext16 nnn = w := (encode_sys nnn).symm.trans word
    have answer : exec (.sys nnn) s = unimplemented w 0 s := by rw [exec, execSys, value]
    rw [dispatch, decoded, group]
    exact answer
  · rw [dispatch, undefined]
    rcases decodeWord_error.mp undefined with ⟨rfl, group, -⟩ | ⟨rfl, group, -⟩ | ⟨rfl, group, -⟩ <;>
      rw [group] <;> rfl

/-- The end of a step on an Unimplemented word under NOOP, where R94 moves PC by `k`. -/
def afterNoop (k : Word) (s : State) : State := endStep (((beginStep s).signal .unimplemented).advance k)

/-- R235: such a step changes PC, the status and the timers at most. -/
theorem afterNoop_eq (k : Word) (s : State) : afterNoop k s =
    { s with pc := s.pc + k, status := .unimplemented, dt := (afterNoop k s).dt, st := (afterNoop k s).st } := by
  generalize dt : (afterNoop k s).dt = d
  generalize st : (afterNoop k s).st = e
  rw [afterNoop, endStep_eq, ← afterNoop, dt, st, beginStep_eq]
  rfl

/-- R199, R235: and it ticks each timer once. -/
theorem afterNoop_timers (k : Word) (s : State) :
    (afterNoop k s).dt.toNat = ticked s.dt ∧ (afterNoop k s).st.toNat = ticked s.st :=
  step_ticks_once (beginStep_cfg s) rfl rfl

end Unimplemented

/-- Settles O8: P_UNDEFINED chooses between the no-op, committed with its tick, and the Fatal, discarded to the state
before the step. -/
theorem unimplementedWords : Obligations.UnimplementedWords := by
  intro s w fetches isUnimplemented
  have ⟨running, _, _⟩ := fetches
  rw [step_of_fetches fetches, dispatch_unimplemented isUnimplemented]
  refine ⟨fun noop => ?_, fun fault => ?_⟩
  · rw [unimplemented, beginStep_cfg, noop]
    obtain ⟨dt, st⟩ := afterNoop_timers (if fieldG w = 0x8 then 2 else 0) s
    refine ⟨afterNoop _ s, commit_next_running ((beginStep_rs s).trans running), ?_⟩
    rw [afterNoop_eq]
    refine ⟨rfl, running, fun _ _ => rfl, fun _ => rfl, ?_, rfl, rfl, rfl, ⟨rfl, rfl, rfl, rfl⟩, dt, st, rfl⟩
    rw [apply_ite (s.pc + ·)]
    exact congrArg (ite _ _) (BitVec.add_zero s.pc)
  · rw [unimplemented, beginStep_cfg, fault]
    exact (commit_next_faulted rfl).trans (congrArg _ (discardStep_raiseFatal _ _))

/-- R232: the parameter value under which a cause can occur, for the two causes that no default value lets occur. -/
def Enabled (cfg : Config) : Cause → Prop
  | .spriteRowOutOfRange => cfg.vertical = .fault
  | .undefinedInstruction => cfg.undefinedWords = .fault
  | _ => True

/-- The answer of an execute phase from `s`: no next state, a state in the same run state, or the Fatal state of `s`
with a cause that the configuration enables (R231, R232). -/
def RaisesEnabled (s : State) (r : Result) : Prop :=
  ∀ t, r = .next t → t.rs = s.rs ∨ ∃ cause addr, t = faultedState s cause addr ∧ Enabled s.cfg cause

section Raises

variable {s t : State} {cause : Cause} {addr : Nat}

/-! R173, R193, R194: the causes of the checks that have more than one. -/

theorem spriteReadCheck_enabled {n : Nat} (h : spriteReadCheck s n = some (cause, addr)) : Enabled s.cfg cause := by
  rw [spriteReadCheck] at h
  split at h <;> cases h
  trivial

theorem spriteRowCheck_enabled {cfg : Config} {y0 n : Nat} (h : spriteRowCheck cfg y0 n = some (cause, addr)) :
    Enabled cfg cause := by
  rw [spriteRowCheck] at h
  split at h
  case h_1 policy =>
    split_ifs at h
    cases h
    exact policy
  case h_2 | h_3 | h_4 => cases h

theorem spriteWriteCheck_enabled {cfg : Config} {x0 y0 n : Nat}
    (h : spriteWriteCheck cfg x0 y0 n = some (cause, addr)) : Enabled cfg cause := by
  rw [spriteWriteCheck] at h
  split at h
  case h_1 =>
    split at h <;> cases h
    trivial
  case h_2 | h_3 | h_4 => cases h

theorem spriteCheck_enabled {x0 y0 n : Nat} (h : spriteCheck s x0 y0 n = some (cause, addr)) :
    Enabled s.cfg cause := by
  rw [spriteCheck, Option.or_eq_some_iff, Option.or_eq_some_iff] at h
  rcases h with (read | ⟨-, row⟩) | ⟨-, write⟩
  · exact spriteReadCheck_enabled read
  · exact spriteRowCheck_enabled row
  · exact spriteWriteCheck_enabled write

theorem storeCheck_enabled {cfg : Config} {a n : Nat} (h : storeCheck cfg a n = some (cause, addr)) :
    Enabled cfg cause := by
  rw [storeCheck] at h
  split at h
  · cases h; trivial
  · split at h <;> cases h
    trivial

/-! R30: writing memory, loading registers and drawing leave RS alone. -/

theorem writeBytes_rs (s : State) (a : Nat) (bs : List Byte) : (s.writeBytes a bs).rs = s.rs := by
  rw [writeBytes_eq]

theorem storeBytes_rs (s : State) (a : Nat) (bs : List Byte) : (storeBytes s a bs).rs = s.rs := by
  rw [storeBytes_eq]

theorem loadRegs_rs (s : State) (a n : Nat) : (loadRegs s a n).rs = s.rs := by
  rw [loadRegs_eq]

theorem drawRows_rs (x0 y0 n : Nat) (s : State) : (drawRows x0 y0 n s).rs = s.rs := by
  obtain ⟨only, -⟩ := drawRows_touches x0 y0 n s
  rw [only]

namespace RaisesEnabled

theorem kept (h : t.rs = s.rs) : RaisesEnabled s (.next t) := by
  rintro _ ⟨⟩; exact .inl h

theorem completed (h : t.rs = s.rs) : RaisesEnabled s (completed t) := kept h

theorem fatal (addr : Nat) (h : Enabled s.cfg cause) : RaisesEnabled s (fatal s cause addr) :=
  fun _ answer => .inr ⟨cause, addr, fatal_next answer, h⟩

theorem unimplemented (w k : Word) : RaisesEnabled s (unimplemented w k s) := by
  rcases unimplemented_cases w k s with ⟨-, answer⟩ | ⟨policy, answer⟩ <;> rw [answer]
  · exact kept rfl
  · exact fatal _ policy

end RaisesEnabled

end Raises

section Instructions

variable (s : State)

open RaisesEnabled

theorem execRet_raises : RaisesEnabled s (execRet s) := by
  rw [execRet]
  split
  · exact fatal _ trivial
  · exact kept rfl

theorem execCall_raises (nnn : Addr12) : RaisesEnabled s (execCall nnn s) := by
  rw [execCall]
  split_ifs
  · exact fatal _ trivial
  · exact fun _ h => nomatch h
  · exact kept rfl

theorem execJp_raises (nnn : Addr12) : RaisesEnabled s (execJp nnn s) := by
  rw [execJp_eq]; exact kept rfl

theorem execDrw_raises (x y n : Nibble) : RaisesEnabled s (execDrw x y n s) := by
  rw [execDrw]
  split
  next check => exact fatal _ (spriteCheck_enabled check)
  next => exact completed (drawRows_rs _ _ _ (s.setReg regVF 0))

theorem execSkp_raises (x : Nibble) : RaisesEnabled s (execSkp x s) := by
  rw [execSkp]
  split
  · exact fatal _ trivial
  · exact kept rfl

theorem execSknp_raises (x : Nibble) : RaisesEnabled s (execSknp x s) := by
  rw [execSknp]
  split
  · exact fatal _ trivial
  · exact kept rfl

theorem execLdVxK_raises (x : Nibble) : RaisesEnabled s (execLdVxK x s) := by
  rw [execLdVxK]
  split
  · split <;> exact kept rfl
  · exact kept rfl

theorem execLdB_raises (x : Nibble) : RaisesEnabled s (execLdB x s) := by
  rw [execLdB]
  split
  next check => exact fatal _ (storeCheck_enabled check)
  next => exact completed (storeBytes_rs s _ _)

theorem execLdMemVx_raises (x : Nibble) : RaisesEnabled s (execLdMemVx x s) := by
  rw [execLdMemVx]
  split
  next check => exact fatal _ (storeCheck_enabled check)
  next => exact completed (storeBytes_rs s _ _)

theorem execLdVxMem_raises (x : Nibble) : RaisesEnabled s (execLdVxMem x s) := by
  rw [execLdVxMem]
  split
  · exact fatal _ trivial
  · exact completed (loadRegs_rs s _ _)

/-- R232: of the instructions only DXYN raises SPRITE_ROW_OUT_OF_RANGE and only SYS UNDEFINED_INSTRUCTION, each under
its parameter. -/
theorem exec_raises (i : Instr) : RaisesEnabled s (exec i s) :=
  match i with
  | .sys _ => unimplemented _ _
  | .cls => completed (writeBytes_rs s _ _)
  | .ret => execRet_raises s
  | .jp nnn => execJp_raises s nnn
  | .call nnn => execCall_raises s nnn
  | .drw x y n => execDrw_raises s x y n
  | .skp x => execSkp_raises s x
  | .sknp x => execSknp_raises s x
  | .ldVxK x => execLdVxK_raises s x
  | .ldB x => execLdB_raises s x
  | .ldMemVx x => execLdMemVx_raises s x
  | .ldVxMem x => execLdVxMem_raises s x
  | .jpV0 _ | .seImm _ _ | .sneImm _ _ | .seReg _ _ _ | .sneReg _ _ _ => kept rfl
  | .ldImm _ _ | .addImm _ _ | .rnd _ _ | .ldReg _ _ | .orReg _ _ | .andReg _ _ | .xorReg _ _ => kept rfl
  | .addReg _ _ | .subReg _ _ | .shr _ _ | .subn _ _ | .shl _ _ => kept rfl
  | .ldI _ | .addI _ | .ldF _ | .ldVxDt _ | .ldDtVx _ | .ldStVx _ => kept rfl

theorem execUndefined_raises (u : Undefined) : RaisesEnabled s (execUndefined u s) := by
  cases u <;> exact unimplemented _ _

theorem fetchAndExecute_raises : RaisesEnabled s (fetchAndExecute s) := by
  rw [fetchAndExecute]
  split
  · exact fatal _ trivial
  · rw [dispatch]
    split
    · exact exec_raises s _
    · exact execUndefined_raises s _

end Instructions

/-- R231, R232: a step that faults ends in the Fatal state of the state before it, with an enabled cause. -/
theorem step_faulted {s t : State} (running : s.rs = .running) (h : step s = .next t) (faulted : t.rs = .faulted) :
    ∃ cause addr, t = faultedState s cause addr ∧ Enabled s.cfg cause := by
  rw [step_running running] at h
  obtain ⟨u, answer, ⟨uRuns, rfl⟩ | ⟨uFaulted, rfl⟩⟩ := commit_next h
  · rw [endStep_rs, uRuns] at faulted
    cases faulted
  · rcases fetchAndExecute_raises _ u answer with kept | ⟨cause, addr, rfl, enabled⟩
    · rw [beginStep_rs, running, uFaulted] at kept
      cases kept
    · rw [beginStep_cfg] at enabled
      exact ⟨cause, addr, discardStep_raiseFatal cause addr, enabled⟩

/-- Settles O49: the step is discarded, and its Fatal is latched on the state before it. -/
theorem fatalIsPrecise : Obligations.FatalIsPrecise := by
  intro s t running answer faulted
  obtain ⟨cause, addr, latched, -⟩ := step_faulted running answer faulted
  exact ⟨cause, addr, latched⟩

theorem causeCode_of_enabled_default {cause : Cause} (h : Enabled defaultConfig cause) :
    1 ≤ causeCode cause ∧ causeCode cause ≤ 7 := by
  cases cause
  case spriteRowOutOfRange | undefinedInstruction => cases h
  all_goals decide

/-- Settles O51: the causes 8 and 9 are enabled by no default value. -/
theorem defaultCausesAreOneToSeven : Obligations.DefaultCausesAreOneToSeven := by
  intro s t isDefault running answer faulted
  obtain ⟨cause, addr, rfl, enabled⟩ := step_faulted running answer faulted
  exact ⟨_, rfl, causeCode_of_enabled_default (isDefault ▸ enabled)⟩

/-- R233: a step of a faulted machine. -/
theorem step_of_faulted {s : State} (faulted : s.rs = .faulted) : step s = .next (idleStep s) := by
  simp [step, faulted]

/-- R34, R233: no event but reset takes a faulted machine out of its state. -/
theorem hostStep_stays_faulted {s t : State} {e : HostEvent} (faulted : s.rs = .faulted)
    (answer : hostStep e s = .next t) (noReset : e ≠ .reset) : t.rs = .faulted := by
  cases e with
  | step =>
    rw [hostStep, step_of_faulted faulted] at answer
    cases answer
    exact faulted
  | keySet k b | load a b =>
    cases answer
    exact faulted
  | reset => exact absurd rfl noReset

/-- Settles O50: the machine idles, reset clears RS and FR, and every other event leaves the machine faulted. -/
theorem faultedMachineDoesNothing : Obligations.FaultedMachineDoesNothing := by
  intro s faulted
  obtain ⟨-, -, -, -, -, -, -, resetRs, resetFr, -⟩ := resetWith_fields s.cfg
  refine ⟨step_of_faulted faulted, resetRs, resetFr, fun e t answer running => by_contra fun other => ?_⟩
  cases running.symm.trans (hostStep_stays_faulted faulted answer other)

end Sys2Proof.Proofs
end

section
/-! The free bytes of RND (41_alu.md R123, assumption 3): RND uses up one draw, and no other instruction does (O21); and
the decode table of 95_test_vectors.md (O3). -/

namespace Sys2Proof.Proofs

open Sys2Proof.Machine Sys2Proof.Claims Sys2Proof.Laws

/-- An answer from `s` whose next state, if there is one, has made as many draws as `s`. -/
def KeepsDraws (s : State) (r : Result) : Prop := ∀ t, r = .next t → t.draws = s.draws

namespace KeepsDraws

variable {s t : State}

theorem next (h : t.draws = s.draws) : KeepsDraws s (.next t) := by
  rintro _ ⟨⟩; exact h

theorem completed (h : t.draws = s.draws) : KeepsDraws s (completed t) := next h

theorem fatal (cause : Cause) (addr : Nat) : KeepsDraws s (fatal s cause addr) := next rfl

theorem unimplemented (w k : Word) : KeepsDraws s (unimplemented w k s) := by
  rcases unimplemented_cases w k s with ⟨-, answer⟩ | ⟨-, answer⟩ <;> rw [answer]
  · exact next rfl
  · exact fatal _ _

end KeepsDraws

theorem drawRows_draws (x0 y0 n : Nat) (s : State) : (drawRows x0 y0 n s).draws = s.draws := by
  obtain ⟨only, -⟩ := drawRows_touches x0 y0 n s
  rw [only]

section Instructions

variable (s : State)

open KeepsDraws

theorem execRet_keepsDraws : KeepsDraws s (execRet s) := by
  rw [execRet]
  split
  · exact fatal _ _
  · exact next rfl

theorem execCall_keepsDraws (nnn : Addr12) : KeepsDraws s (execCall nnn s) := by
  rw [execCall]
  split_ifs
  · exact fatal _ _
  · exact fun _ h => nomatch h
  · exact next rfl

theorem execJp_keepsDraws (nnn : Addr12) : KeepsDraws s (execJp nnn s) := by
  rw [execJp_eq]; exact next rfl

theorem execDrw_keepsDraws (x y n : Nibble) : KeepsDraws s (execDrw x y n s) := by
  rw [execDrw]
  split
  · exact fatal _ _
  · exact completed (drawRows_draws _ _ _ (s.setReg regVF 0))

theorem execSkp_keepsDraws (x : Nibble) : KeepsDraws s (execSkp x s) := by
  rw [execSkp]
  split
  · exact fatal _ _
  · exact next rfl

theorem execSknp_keepsDraws (x : Nibble) : KeepsDraws s (execSknp x s) := by
  rw [execSknp]
  split
  · exact fatal _ _
  · exact next rfl

theorem execLdVxK_keepsDraws (x : Nibble) : KeepsDraws s (execLdVxK x s) := by
  rw [execLdVxK]
  split
  · split <;> exact next rfl
  · exact next rfl

theorem execLdB_keepsDraws (x : Nibble) : KeepsDraws s (execLdB x s) := by
  rw [execLdB]
  split
  · exact fatal _ _
  · exact completed (storeBytes_draws s _ _)

theorem execLdMemVx_keepsDraws (x : Nibble) : KeepsDraws s (execLdMemVx x s) := by
  rw [execLdMemVx]
  split
  · exact fatal _ _
  · exact completed (storeBytes_draws s _ _)

theorem execLdVxMem_keepsDraws (x : Nibble) : KeepsDraws s (execLdVxMem x s) := by
  rw [execLdVxMem]
  split
  · exact fatal _ _
  · exact completed (loadRegs_draws s _ _)

/-- Assumption 3: CXNN alone uses a draw up. -/
theorem exec_keepsDraws (i : Instr) (notRnd : ∀ x nn, i ≠ .rnd x nn) : KeepsDraws s (exec i s) :=
  match i with
  | .rnd x nn => absurd rfl (notRnd x nn)
  | .sys _ => unimplemented _ _
  | .cls => completed (writeBytes_draws s _ _)
  | .ret => execRet_keepsDraws s
  | .jp nnn => execJp_keepsDraws s nnn
  | .call nnn => execCall_keepsDraws s nnn
  | .drw x y n => execDrw_keepsDraws s x y n
  | .skp x => execSkp_keepsDraws s x
  | .sknp x => execSknp_keepsDraws s x
  | .ldVxK x => execLdVxK_keepsDraws s x
  | .ldB x => execLdB_keepsDraws s x
  | .ldMemVx x => execLdMemVx_keepsDraws s x
  | .ldVxMem x => execLdVxMem_keepsDraws s x
  | .jpV0 _ | .seImm _ _ | .sneImm _ _ | .seReg _ _ _ | .sneReg _ _ _ => next rfl
  | .ldImm _ _ | .addImm _ _ | .ldReg _ _ | .orReg _ _ | .andReg _ _ | .xorReg _ _ => completed rfl
  | .addReg _ _ | .subReg _ _ | .shr _ _ | .subn _ _ | .shl _ _ => completed rfl
  | .ldI _ | .addI _ | .ldF _ | .ldVxDt _ | .ldDtVx _ | .ldStVx _ => completed rfl

end Instructions

/-- R123, assumption 3: RND masks the free byte of the present count of draws and uses it up. -/
theorem exec_rnd_next {s t : State} {x : Nibble} {nn : Byte} (h : exec (.rnd x nn) s = .next t) :
    t = (s.setReg x (Config.rand8 s.draws &&& nn)).drawn.advance 2 :=
  completed_next h

/-- Settles O21: RND by the state it ends in, every other instruction by `exec_keepsDraws`. -/
theorem eachRndDrawsAfresh : Obligations.EachRndDrawsAfresh := by
  refine ⟨fun s t x nn answer => ?_, fun i s t notRnd answer => exec_keepsDraws s i notRnd t answer⟩
  rw [exec_rnd_next answer]
  exact ⟨by simp, by simp⟩

/-- Settles O3: a word of the table that has an instruction is its encoding; the other three are of R94's groups. -/
theorem decodeVectors : Obligations.DecodeVectors :=
  ⟨decodeWord_of_eq_encode rfl rfl, decodeWord_of_eq_encode rfl rfl, decodeWord_of_eq_encode rfl rfl,
    decodeWord_of_eq_encode rfl rfl, decodeWord_of_eq_encode rfl rfl, decodeWord_of_eq_encode rfl rfl,
    decodeWord_of_eq_encode rfl rfl,
    decodeWord_error.mpr (.inl ⟨rfl, by decide, by decide⟩),
    decodeWord_error.mpr (.inr (.inl ⟨rfl, by decide, by decide⟩)),
    decodeWord_error.mpr (.inr (.inr ⟨rfl, by decide, by decide⟩)),
    decodeWord_of_eq_encode rfl rfl⟩

end Sys2Proof.Proofs
end
